-- ==== Sys2Proof/Word.lean ====
section
/-! DEFINITION. The plain data types of the machine's words and the narrowest arithmetic on them. -/

namespace Sys2Proof

/-- A byte of any memory (R3). -/
abbrev Byte := BitVec 8

/-- A 64-bit data word: the part of a g register an integer instruction reads (R153). -/
abbrev Word := BitVec 64

/-- A tile address (R61). -/
abbrev Addr := BitVec 32

/-- One vector register (R129). -/
abbrev Vec := BitVec 512

/-- The number of a g or v register (R129). -/
abbrev Reg := BitVec 5

/-- The number of a mask register (R129). -/
abbrev MReg := BitVec 3

/-- A code-store byte address (R133). -/
abbrev Pc := BitVec 18

end Sys2Proof
end

