-- ==== Sys2Proof/Syntax.lean ====
section
/-! DEFINITION. The instructions and events of the PLV-W1 as data: the ONE inductive `Instr`, one constructor for each
row of spec/opcode_table.json, and the small types its operands use. -/

namespace Sys2Proof

/-- The lane types of R136, in the order of their codes 0 to 14. -/
inductive LaneTy where
  | s8 | s16 | s32 | s64 | n8 | n16 | n32 | n64 | f16 | bf16 | f32 | f64 | e4m3 | e5m2 | e2m1
  deriving DecidableEq, Repr, Inhabited

/-- The shapes of an accumulator (R144, R204): 32x32 f32, 32x32 s32, 16x16 f64. -/
inductive AccShape where
  | f32 | s32 | f64
  deriving DecidableEq, Repr, Inhabited

/-- A channel end, or with `idx` 256 + L the latch L, of a vtile: where a message comes from or goes to. -/
structure EndRef where
  vt : Nat := 0
  idx : Nat := 0
  deriving DecidableEq, Repr, Inhabited

/-- What a message of the fabric says (R38, R43, R49, R54). -/
inductive MsgKind where
  | offer (psel : Bool) (plen : BitVec 11)
  /-- A claim on a plain offer, or by a plain operation, with its held and wait bits and the length of its block. -/
  | claim (held wait : Bool) (plen : BitVec 11)
  /-- A confirmation request between two selects, with its wait bit (R49). -/
  | confirm (wait : Bool)
  | grant (held : Bool)
  | refusal
  | withdrawal
  /-- A go, with the length of the receiver's block. -/
  | go (plen : BitVec 11)
  /-- The header flit and the data behind it: the source address and length of a block, or the value of a word or
  vector, and for a message that came from another panel its bytes. -/
  | flits (kind : BitVec 2) (value : Vec) (addr len : Nat) (bytes : List Byte)
  /-- The acknowledgement, with the bytes moved (R38, R44). -/
  | ack (moved : Nat)
  | close
  | latArrive
  | latDrop
  | latLeave (phase : BitVec 16)
  | latPhase (phase : BitVec 16)
  deriving DecidableEq, Repr, Inhabited

/-- A message in the fabric. `hop` is the hop count of R43, `back` says that it has been returned to its source, and
`parked` that its header flit has still to go on, holding virtual channels of the first `taken` links of its route (R267),
`held` that it waits in the router of a frozen or absent
tile, or of a frozen process (R23, R43, R102). -/
structure Msg where
  src : EndRef := {}
  dst : EndRef := {}
  kind : MsgKind := .refusal
  tile : Nat := 0
  hop : Nat := 0
  back : Bool := false
  parked : Bool := false
  taken : Nat := 0
  held : Bool := false
  deriving DecidableEq, Repr, Inhabited

/-- A flit of a message between panels: the message, its place among the message's flits and their number (R349); `lost`
that its codeword was given up. -/
structure Flit where
  msg : Msg := {}
  idx : Nat := 0
  of_ : Nat := 1
  lost : Bool := false
  deriving DecidableEq, Repr, Inhabited

/-- A link that training found below full condition, or an optical port with its peer (R300, R348). -/
structure LinkFound where
  index : Nat := 0
  cond : BitVec 4 := 0
  rate : BitVec 32 := 0
  lat : BitVec 32 := 0
  far : BitVec 16 := 0
  peer : Word := 0
  deriving DecidableEq, Repr, Inhabited

/-- One record of an acknowledgement codeword (R349). -/
structure AckRecord where
  seq : BitVec 16 := 0
  lane : BitVec 4 := 0
  resend : Bool := false
  pair : BitVec 2 := 0
  deriving DecidableEq, Repr, Inhabited

/-- What the screening of a tile found, apart from its margin: a failure of BIST, or of the replay a divergence or, with a state
hash, its end (R338). -/
inductive ScreenResult where
  | bistFail | diverged | replayed
  deriving DecidableEq, Repr, Inhabited

/-- The register spaces of a REGISTER_WRITE: BAR0 of the physical function, BAR0 of virtual function i, the Idhan bus, and the
physical function's configuration space. -/
inductive RegSpace where
  | pf
  | vf (i : Nat)
  | idhan
  | config
  deriving DecidableEq, Repr, Inhabited

/-- The operands of an event: the vtile by its key `k`, the slot `q`, the end or copy entry `e`, the message in flight
by its place `n`, the physical tile or port or pump `p`, the region `r`, the chiplet, structure code, stack or lane `c`,
an element or page `j`, and the data it carries; `outside` is what agents outside the panel have written to host and
peer memory, and the driver to frames of HBM, since the last input. An event reads those its meaning names. -/
structure EvArgs where
  k : Nat := 0
  q : Nat := 0
  e : Nat := 0
  n : Nat := 0
  p : Nat := 0
  r : Nat := 0
  c : Nat := 0
  j : Nat := 0
  t : BitVec 4 := 0
  vt : BitVec 16 := 0
  seq : BitVec 16 := 0
  ok : Bool := false
  v : Word := 0
  bytes : List Byte := []
  outside : List (Nat × Byte) := []
  rate : BitVec 32 := 0
  screen : ScreenResult := .replayed
  space : RegSpace := .pf
  links : List LinkFound := []
  bad : List (Nat × Nat) := []
  flits : List Flit := []
  acks : List AckRecord := []
  deriving DecidableEq, Repr, Inhabited

/-- The instructions and events: first the encoded rows of the opcode table in its order, then the word that is no
instruction, then the rows that are events of the part. Register operands are d, a, b, c as the encodings name them
(R134), x and s the auxiliary and status registers, m a mask, t and s lane types, w a width or a status-word number, e an
end or latch, p a displacement or a pump. An event's operands stand in the state (`State.arg`). -/
inductive Instr where
  /-- ADD (R155). -/
  | add (d a b : Reg)
  /-- SUB (R155). -/
  | sub (d a b : Reg)
  /-- AND (R155). -/
  | and (d a b : Reg)
  /-- OR (R155). -/
  | or (d a b : Reg)
  /-- XOR (R155). -/
  | xor (d a b : Reg)
  /-- ANDN (R155). -/
  | andn (d a b : Reg)
  /-- ORN (R155). -/
  | orn (d a b : Reg)
  /-- SHL (R155). -/
  | shl (d a b : Reg)
  /-- SHR (R155). -/
  | shr (d a b : Reg)
  /-- SRA (R155). -/
  | sra (d a b : Reg)
  /-- ROL (R155). -/
  | rol (d a b : Reg)
  /-- ROR (R155). -/
  | ror (d a b : Reg)
  /-- ADDW (R156). -/
  | addw (d a b : Reg)
  /-- SUBW (R156). -/
  | subw (d a b : Reg)
  /-- MULW (R156). -/
  | mulw (d a b : Reg)
  /-- SHLW (R156). -/
  | shlw (d a b : Reg)
  /-- SHRW (R156). -/
  | shrw (d a b : Reg)
  /-- SRAW (R156). -/
  | sraw (d a b : Reg)
  /-- MUL (R155). -/
  | mul (d a b : Reg)
  /-- MULH (R155). -/
  | mulh (d a b : Reg)
  /-- MULHN (R155). -/
  | mulhn (d a b : Reg)
  /-- DIV (R155). -/
  | div (d a b : Reg)
  /-- DIVN (R155). -/
  | divn (d a b : Reg)
  /-- REM (R155). -/
  | rem (d a b : Reg)
  /-- REMN (R155). -/
  | remn (d a b : Reg)
  /-- MIN (R155). -/
  | min (d a b : Reg)
  /-- MAX (R155). -/
  | max (d a b : Reg)
  /-- MINN (R155). -/
  | minn (d a b : Reg)
  /-- MAXN (R155). -/
  | maxn (d a b : Reg)
  /-- SLT (R155). -/
  | slt (d a b : Reg)
  /-- SLTN (R155). -/
  | sltn (d a b : Reg)
  /-- SEQ (R155). -/
  | seq (d a b : Reg)
  /-- CLZ (R155). -/
  | clz (d a : Reg)
  /-- CTZ (R155). -/
  | ctz (d a : Reg)
  /-- POPC (R155). -/
  | popc (d a : Reg)
  /-- BREV (R155). -/
  | brev (d a : Reg)
  /-- BSWAP (R155). -/
  | bswap (d a : Reg)
  /-- SEXT (R157). -/
  | sext (d a : Reg) (w : BitVec 6)
  /-- ZEXT (R157). -/
  | zext (d a : Reg) (w : BitVec 6)
  /-- CSEL (R158). -/
  | csel (d a b c : Reg)
  /-- ADDI (R159). -/
  | addi (d a : Reg) (i : BitVec 15)
  /-- ANDI (R159). -/
  | andi (d a : Reg) (i : BitVec 15)
  /-- ORI (R159). -/
  | ori (d a : Reg) (i : BitVec 15)
  /-- XORI (R159). -/
  | xori (d a : Reg) (i : BitVec 15)
  /-- SHLI (R159). -/
  | shli (d a : Reg) (n : BitVec 6)
  /-- SHRI (R159). -/
  | shri (d a : Reg) (n : BitVec 6)
  /-- SRAI (R159). -/
  | srai (d a : Reg) (n : BitVec 6)
  /-- SLTI (R159). -/
  | slti (d a : Reg) (i : BitVec 15)
  /-- SLTNI (R159). -/
  | sltni (d a : Reg) (i : BitVec 15)
  /-- LUI (R160). -/
  | lui (d : Reg) (i : BitVec 20)
  /-- ADDPC (R160). -/
  | addpc (d : Reg) (i : BitVec 20)
  /-- LDK (R161). -/
  | ldk (d : Reg) (k : BitVec 8)
  /-- ADDK (R161). -/
  | addk (d a : Reg) (k : BitVec 8)
  /-- CBND (R163). -/
  | cbnd (d a b : Reg)
  /-- CINC (R164). -/
  | cinc (d a b : Reg)
  /-- CPERM (R165). -/
  | cperm (d a b : Reg)
  /-- CBASE (R166). -/
  | cbase (d a : Reg)
  /-- CLIMIT (R166). -/
  | climit (d a : Reg)
  /-- CGETP (R166). -/
  | cgetp (d a : Reg)
  /-- CTAG (R166). -/
  | ctag (d a : Reg)
  /-- CUNTAG (R167). -/
  | cuntag (d a : Reg)
  /-- CSUB (R166). -/
  | csub (d a b : Reg)
  /-- CINCI (R164). -/
  | cinci (d a : Reg) (i : BitVec 15)
  /-- BEQ (R168). -/
  | beq (a b : Reg) (p : BitVec 15)
  /-- BNE (R168). -/
  | bne (a b : Reg) (p : BitVec 15)
  /-- BLT (R168). -/
  | blt (a b : Reg) (p : BitVec 15)
  /-- BGE (R168). -/
  | bge (a b : Reg) (p : BitVec 15)
  /-- BLTN (R168). -/
  | bltn (a b : Reg) (p : BitVec 15)
  /-- BGEN (R168). -/
  | bgen (a b : Reg) (p : BitVec 15)
  /-- BZ (R168). -/
  | bz (a : Reg) (p : BitVec 15)
  /-- BNZ (R168). -/
  | bnz (a : Reg) (p : BitVec 15)
  /-- JAL (R169). -/
  | jal (d : Reg) (p : BitVec 20)
  /-- JALR (R169). -/
  | jalr (d a : Reg) (i : BitVec 15)
  /-- LDB (R170). -/
  | ldb (d a : Reg) (i : BitVec 15)
  /-- LDBN (R170). -/
  | ldbn (d a : Reg) (i : BitVec 15)
  /-- LDH (R170). -/
  | ldh (d a : Reg) (i : BitVec 15)
  /-- LDHN (R170). -/
  | ldhn (d a : Reg) (i : BitVec 15)
  /-- LDW (R170). -/
  | ldw (d a : Reg) (i : BitVec 15)
  /-- LDWN (R170). -/
  | ldwn (d a : Reg) (i : BitVec 15)
  /-- LDD (R170). -/
  | ldd (d a : Reg) (i : BitVec 15)
  /-- LDC (R172). -/
  | ldc (d a : Reg) (i : BitVec 15)
  /-- STB (R171). -/
  | stb (d a : Reg) (i : BitVec 15)
  /-- STH (R171). -/
  | sth (d a : Reg) (i : BitVec 15)
  /-- STW (R171). -/
  | stw (d a : Reg) (i : BitVec 15)
  /-- STD (R171). -/
  | std (d a : Reg) (i : BitVec 15)
  /-- STC (R172). -/
  | stc (d a : Reg) (i : BitVec 15)
  /-- AMOADD (R174). -/
  | amoadd (d a b : Reg) (z : Bool)
  /-- AMOAND (R174). -/
  | amoand (d a b : Reg) (z : Bool)
  /-- AMOOR (R174). -/
  | amoor (d a b : Reg) (z : Bool)
  /-- AMOXOR (R174). -/
  | amoxor (d a b : Reg) (z : Bool)
  /-- AMOMIN (R174). -/
  | amomin (d a b : Reg) (z : Bool)
  /-- AMOMAX (R174). -/
  | amomax (d a b : Reg) (z : Bool)
  /-- AMOMINN (R174). -/
  | amominn (d a b : Reg) (z : Bool)
  /-- AMOMAXN (R174). -/
  | amomaxn (d a b : Reg) (z : Bool)
  /-- AMOSWP (R174). -/
  | amoswp (d a b : Reg) (z : Bool)
  /-- CAS (R174). -/
  | cas (d a b : Reg) (z : Bool)
  /-- FADD (R178). -/
  | fadd (d a b : Reg) (w : Bool)
  /-- FSUB (R178). -/
  | fsub (d a b : Reg) (w : Bool)
  /-- FMUL (R178). -/
  | fmul (d a b : Reg) (w : Bool)
  /-- FDIV (R178). -/
  | fdiv (d a b : Reg) (w : Bool)
  /-- FSQRT (R178). -/
  | fsqrt (d a : Reg) (w : Bool)
  /-- FMA (R178). -/
  | fma (d a b c : Reg) (w : Bool)
  /-- FMS (R178). -/
  | fms (d a b c : Reg) (w : Bool)
  /-- FNMA (R178). -/
  | fnma (d a b c : Reg) (w : Bool)
  /-- FNMS (R178). -/
  | fnms (d a b c : Reg) (w : Bool)
  /-- FMIN (R179). -/
  | fmin (d a b : Reg) (w : Bool)
  /-- FMAX (R179). -/
  | fmax (d a b : Reg) (w : Bool)
  /-- FSGN_J (R179). -/
  | fsgnJ (d a b : Reg) (w : Bool)
  /-- FSGN_N (R179). -/
  | fsgnN (d a b : Reg) (w : Bool)
  /-- FSGN_X (R179). -/
  | fsgnX (d a b : Reg) (w : Bool)
  /-- FCLASS (R179). -/
  | fclass (d a : Reg) (w : Bool)
  /-- FCMP_EQ (R180). -/
  | fcmpEq (d a b : Reg) (w : Bool)
  /-- FCMP_LT (R180). -/
  | fcmpLt (d a b : Reg) (w : Bool)
  /-- FCMP_LE (R180). -/
  | fcmpLe (d a b : Reg) (w : Bool)
  /-- FCVT (R181). -/
  | fcvt (d a : Reg) (t s : LaneTy) (r : Bool)
  /-- FMVK (R182). -/
  | fmvk (d : Reg) (k : BitVec 8) (w : Bool)
  /-- VADD (R185). -/
  | vadd (d a b : Reg) (m : MReg) (t : LaneTy)
  /-- VSUB (R185). -/
  | vsub (d a b : Reg) (m : MReg) (t : LaneTy)
  /-- VMUL (R185). -/
  | vmul (d a b : Reg) (m : MReg) (t : LaneTy)
  /-- VFMA (R185). -/
  | vfma (d a b : Reg) (m : MReg) (t : LaneTy)
  /-- VFMS (R185). -/
  | vfms (d a b : Reg) (m : MReg) (t : LaneTy)
  /-- VMIN (R185). -/
  | vmin (d a b : Reg) (m : MReg) (t : LaneTy)
  /-- VMAX (R185). -/
  | vmax (d a b : Reg) (m : MReg) (t : LaneTy)
  /-- VDOT (R186). -/
  | vdot (d a b : Reg) (m : MReg) (t : LaneTy)
  /-- VAND (R187). -/
  | vand (d a b : Reg) (m : MReg) (t : LaneTy)
  /-- VOR (R187). -/
  | vor (d a b : Reg) (m : MReg) (t : LaneTy)
  /-- VXOR (R187). -/
  | vxor (d a b : Reg) (m : MReg) (t : LaneTy)
  /-- VANDN (R187). -/
  | vandn (d a b : Reg) (m : MReg) (t : LaneTy)
  /-- VSHL (R187). -/
  | vshl (d a b : Reg) (m : MReg) (t : LaneTy)
  /-- VSHR (R187). -/
  | vshr (d a b : Reg) (m : MReg) (t : LaneTy)
  /-- VSRA (R187). -/
  | vsra (d a b : Reg) (m : MReg) (t : LaneTy)
  /-- VSEL (R187). -/
  | vsel (d a b : Reg) (m : MReg) (t : LaneTy)
  /-- VABS (R185). -/
  | vabs (d a : Reg) (m : MReg) (t : LaneTy)
  /-- VNEG (R185). -/
  | vneg (d a : Reg) (m : MReg) (t : LaneTy)
  /-- VEXP2 (R120). -/
  | vexp2 (d a : Reg) (m : MReg) (t : LaneTy)
  /-- VLOG2 (R120). -/
  | vlog2 (d a : Reg) (m : MReg) (t : LaneTy)
  /-- VRCP (R120). -/
  | vrcp (d a : Reg) (m : MReg) (t : LaneTy)
  /-- VRSQ (R120). -/
  | vrsq (d a : Reg) (m : MReg) (t : LaneTy)
  /-- VSQRT (R120). -/
  | vsqrt (d a : Reg) (m : MReg) (t : LaneTy)
  /-- VRNG (R188). -/
  | vrng (d : Reg) (m : MReg) (t : LaneTy)
  /-- VCMP_EQ (R189). -/
  | vcmpEq (d : MReg) (a b : Reg) (m : MReg) (t : LaneTy)
  /-- VCMP_NE (R189). -/
  | vcmpNe (d : MReg) (a b : Reg) (m : MReg) (t : LaneTy)
  /-- VCMP_LT (R189). -/
  | vcmpLt (d : MReg) (a b : Reg) (m : MReg) (t : LaneTy)
  /-- VCMP_LE (R189). -/
  | vcmpLe (d : MReg) (a b : Reg) (m : MReg) (t : LaneTy)
  /-- VRED_SUM (R190). -/
  | vredSum (d a : Reg) (m : MReg) (t : LaneTy)
  /-- VRED_MIN (R190). -/
  | vredMin (d a : Reg) (m : MReg) (t : LaneTy)
  /-- VRED_MAX (R190). -/
  | vredMax (d a : Reg) (m : MReg) (t : LaneTy)
  /-- VLD (R191). -/
  | vld (d a : Reg) (o : BitVec 5) (m : MReg) (t : LaneTy)
  /-- VST (R191). -/
  | vst (d a : Reg) (o : BitVec 5) (m : MReg) (t : LaneTy)
  /-- VLDS (R192). -/
  | vlds (d a b : Reg) (m : MReg) (t : LaneTy)
  /-- VSTS (R192). -/
  | vsts (d a b : Reg) (m : MReg) (t : LaneTy)
  /-- VGAT (R192). -/
  | vgat (d a b : Reg) (m : MReg) (t : LaneTy)
  /-- VSCT (R192). -/
  | vsct (d a b : Reg) (m : MReg) (t : LaneTy)
  /-- VBCAST (R193). -/
  | vbcast (d a : Reg) (m : MReg) (t : LaneTy)
  /-- VEXT (R193). -/
  | vext (d a b : Reg) (t : LaneTy)
  /-- VINS (R193). -/
  | vins (d a b : Reg) (m : MReg) (t : LaneTy)
  /-- VPERM (R193). -/
  | vperm (d a b : Reg) (m : MReg) (t : LaneTy)
  /-- VCVT (R194). -/
  | vcvt (d a : Reg) (m : MReg) (t s : LaneTy) (r : Bool)
  /-- VMXQ (R124). -/
  | vmxq (d a : Reg) (t : LaneTy)
  /-- VMXD (R125). -/
  | vmxd (d b : Reg) (t : LaneTy)
  /-- MAND (R196). -/
  | mand (d a b : MReg)
  /-- MOR (R196). -/
  | mor (d a b : MReg)
  /-- MXOR (R196). -/
  | mxor (d a b : MReg)
  /-- MNOT (R196). -/
  | mnot (d a : MReg)
  /-- MPOP (R196). -/
  | mpop (d : Reg) (a : MReg)
  /-- MFST (R196). -/
  | mfst (d : Reg) (a : MReg)
  /-- MSET (R196). -/
  | mset (d : MReg) (a : Reg)
  /-- MGET (R196). -/
  | mget (d : Reg) (a : MReg)
  /-- REP (R197). -/
  | rep (a : Reg) (k : BitVec 3)
  /-- PBIND_IN (R199). -/
  | pbindIn (a b : Reg) (p : BitVec 2)
  /-- PBIND_OUT (R199). -/
  | pbindOut (a b : Reg) (p : BitVec 2)
  /-- PDRAIN (R201). -/
  | pdrain (p : BitVec 2)
  /-- PSTAT (R201). -/
  | pstat (d : Reg) (p : BitVec 2)
  /-- PFREE (R201). -/
  | pfree (p : BitVec 2)
  /-- MCLAIM (R205). -/
  | mclaim (c : BitVec 3) (h : AccShape)
  /-- MFREE (R206). -/
  | mfree (c : BitVec 3)
  /-- MZERO (R206). -/
  | mzero (c : BitVec 3)
  /-- MLD (R212). -/
  | mld (c : BitVec 3) (a b : Reg)
  /-- MST (R213). -/
  | mst (c : BitVec 3) (a b x : Reg) (t : BitVec 5)
  /-- MMA (R211). -/
  | mma (c : BitVec 3) (a b x : Reg) (t : BitVec 5)
  /-- MWAIT (R206). -/
  | mwait (c : BitVec 3)
  /-- MSTAT (R207). -/
  | mstat (c : BitVec 3) (d : Reg)
  /-- CPY (R216). -/
  | cpy (d a b c : Reg)
  /-- CPYT (R218). -/
  | cpyt (d a b c : Reg)
  /-- CPYR (R219). -/
  | cpyr (d a b c : Reg) (t o : BitVec 2)
  /-- CPYX_OUT (R221). -/
  | cpyxOut (d a b c : Reg)
  /-- CPYX_IN (R221). -/
  | cpyxIn (d a b c : Reg)
  /-- CWAIT (R223). -/
  | cwait (a : Reg)
  /-- CPOLL (R223). -/
  | cpoll (d a : Reg)
  /-- CABORT (R223). -/
  | cabort (a : Reg)
  /-- SEND (R229). -/
  | send (d : Reg) (e : BitVec 8) (s : Reg)
  /-- SEND_T (R226). -/
  | sendT (d : Reg) (e : BitVec 8) (s : Reg)
  /-- RECV (R229). -/
  | recv (d : Reg) (e : BitVec 8) (s : Reg)
  /-- RECV_T (R226). -/
  | recvT (d : Reg) (e : BitVec 8) (s : Reg)
  /-- SENDV (R229). -/
  | sendv (d : Reg) (e : BitVec 8) (s : Reg)
  /-- RECVV (R229). -/
  | recvv (d : Reg) (e : BitVec 8) (s : Reg)
  /-- SENDB (R229). -/
  | sendb (d : Reg) (e : BitVec 8) (s x : Reg)
  /-- RECVB (R229). -/
  | recvb (d : Reg) (e : BitVec 8) (s x : Reg)
  /-- SELECT (R232). -/
  | select (d : Reg) (b : BitVec 2) (s x : Reg)
  /-- SELECT_T (R232). -/
  | selectT (d : Reg) (b : BitVec 2) (s x : Reg)
  /-- PROBE (R234). -/
  | probe (d : Reg) (e : BitVec 8)
  /-- CHST (R234). -/
  | chst (d : Reg) (e : BitVec 8)
  /-- CHGIVE (R235). -/
  | chgive (d : Reg) (e : BitVec 8)
  /-- LATARR (R53). -/
  | latarr (d : Reg) (e : BitVec 8)
  /-- LATDROP (R53). -/
  | latdrop (e : BitVec 8)
  /-- LATWAIT (R55). -/
  | latwait (d : Reg) (e : BitVec 8)
  /-- SPAWN (R24). -/
  | spawn (d a b s : Reg)
  /-- EXIT (R26). -/
  | exit
  /-- YIELD (R32). -/
  | yield
  /-- RDS (R239). -/
  | rds (d : Reg) (w : BitVec 5)
  /-- WRS (R239). -/
  | wrs (a : Reg) (w : BitVec 5)
  /-- TIME (R240). -/
  | time (d : Reg)
  /-- RNG (R241). -/
  | rng (d : Reg)
  /-- RNGSKIP (R241). -/
  | rngskip (a : Reg)
  /-- FENCE (R77). -/
  | fence (f : BitVec 2)
  /-- CHKPT (R243). -/
  | chkpt
  /-- TRAP (R244). -/
  | trap (i : BitVec 15)
  /-- BRK (R244). -/
  | brk (i : BitVec 15)
  /-- ERET (R246). -/
  | eret (a : Reg)
  /-- SLOTRD (R247). -/
  | slotrd (d a : Reg)
  /-- SLOTWR (R247). -/
  | slotwr (d a b : Reg)
  /-- SLOTCTL_THAW (R248). -/
  | slotctlThaw (a b : Reg)
  /-- SLOTCTL_FREEZE (R96). -/
  | slotctlFreeze (a b : Reg)
  /-- SLOTCTL_KILL (R248). -/
  | slotctlKill (a b : Reg)
  /-- TLBINV (R249). -/
  | tlbinv (a : Reg)
  /-- IDLE (R250). -/
  | idle
  /-- MRDS (R250). -/
  | mrds (d : Reg) (w : BitVec 5)
  /-- MWRS (R250). -/
  | mwrs (a : Reg) (w : BitVec 5)
  /-- MWRS_FQHD (R87). -/
  | mwrsFqhd (a : Reg)
  /-- MWRS_PTENT (R92). -/
  | mwrsPtent (a : Reg)
  /-- MWRS_HFQ (R92). -/
  | mwrsHfq (a : Reg)
  /-- ILLEGAL_ENCODING (R152). -/
  | illegalEncoding (w : BitVec 32)
  /-- NETWORK_START (R17). -/
  | networkStart
  /-- POOL_ENTRY_TAKES_SLOT (R25). -/
  | poolEntryTakesSlot
  /-- AGEING_THRESHOLD (R31). -/
  | ageingThreshold
  /-- OFFER_ARRIVES (R38). -/
  | offerArrives
  /-- CLAIM_ARRIVES (R38). -/
  | claimArrives
  /-- CONFIRMATION_REQUEST_ARRIVES (R49). -/
  | confirmationRequestArrives
  /-- GRANT_ARRIVES (R38). -/
  | grantArrives
  /-- REFUSAL_ARRIVES (R38). -/
  | refusalArrives
  /-- WITHDRAWAL_ARRIVES (R38). -/
  | withdrawalArrives
  /-- GO_ARRIVES (R38). -/
  | goArrives
  /-- FIRST_FLIT_ARRIVES (R38). -/
  | firstFlitArrives
  /-- LAST_BYTE_WRITTEN (R38). -/
  | lastByteWritten
  /-- ACKNOWLEDGEMENT_ARRIVES (R38). -/
  | acknowledgementArrives
  /-- CLOSE_NOTICE_ARRIVES (R38). -/
  | closeNoticeArrives
  /-- DELIVERY_FAILS (R45). -/
  | deliveryFails
  /-- DEADLINE_PASSES (R46). -/
  | deadlinePasses
  /-- VIRTUAL_CHANNEL_FREED (R267). -/
  | virtualChannelFreed
  /-- STUB_FORWARD (R43). -/
  | stubForward
  /-- MESSAGE_RETURNED_TO_SOURCE (R43). -/
  | messageReturnedToSource
  /-- LATCH_ARRIVAL_MSG (R54). -/
  | latchArrivalMsg
  /-- LATCH_DROP_MSG (R54). -/
  | latchDropMsg
  /-- LATCH_LEAVE_MSG (R54). -/
  | latchLeaveMsg
  /-- PHASE_MULTICAST_APPLIED (R54). -/
  | phaseMulticastApplied
  /-- DEADBOLT_PROBE_START (R58). -/
  | deadboltProbeStart
  /-- DEADBOLT_PROBE_MESSAGE (R58). -/
  | deadboltProbeMessage
  /-- DEADBOLT_REPORT (R60). -/
  | deadboltReport
  /-- TRANSLATION_WALK_COMPLETE (R70). -/
  | translationWalkComplete
  /-- TRANSLATION_ENTRY_APPLIED (R68). -/
  | translationEntryApplied
  /-- TLBINV_COMPLETE (R249). -/
  | tlbinvComplete
  /-- PAGE_WAITER_RELEASE (R72). -/
  | pageWaiterRelease
  /-- MATRIX_COMMAND_COMPLETE (R203). -/
  | matrixCommandComplete
  /-- COPY_ELEMENT (R214). -/
  | copyElement
  /-- CPYX_ELEMENT_ACK (R79). -/
  | cpyxElementAck
  /-- CPYX_READ_DATA_ARRIVES (R98). -/
  | cpyxReadDataArrives
  /-- CPYX_WATCHDOG_EXPIRY (R222). -/
  | cpyxWatchdogExpiry
  /-- CPYX_ABORT_TIMEOUT (R223). -/
  | cpyxAbortTimeout
  /-- CPYX_PAUSE_ACK_TIMEOUT (R98). -/
  | cpyxPauseAckTimeout
  /-- INPUT_PUMP_PREFETCH (R75). -/
  | inputPumpPrefetch
  /-- OUTPUT_PUMP_WRITE (R200). -/
  | outputPumpWrite
  /-- DEFERRED_FAULT_RECORD_WRITE (R87). -/
  | deferredFaultRecordWrite
  /-- MONITOR_WAKE (R250). -/
  | monitorWake
  /-- MONITOR_TIMEOUT (R91). -/
  | monitorTimeout
  /-- HFQ_APPEND_COMPLETE (R92). -/
  | hfqAppendComplete
  /-- FANS_RESUME (R89). -/
  | fansResume
  /-- FANS_NEXT (R89). -/
  | fansNext
  /-- FANS_KILL (R89). -/
  | fansKill
  /-- FREEZE_REQUEST_ACCEPTED (R97). -/
  | freezeRequestAccepted
  /-- TILE_QUIESCENT (R97). -/
  | tileQuiescent
  /-- FREEZE_RELEASE (R100). -/
  | freezeRelease
  /-- SUPPLY_OUT_OF_RANGE (R343). -/
  | supplyOutOfRange
  /-- SUPPLY_POWERDOWN (R343). -/
  | supplyPowerdown
  /-- REGION_OVERCURRENT (R343). -/
  | regionOvercurrent
  /-- POWER_EMERGENCY_CLEAR (R343). -/
  | powerEmergencyClear
  /-- THERMAL_EMERGENCY (R346). -/
  | thermalEmergency
  /-- THERMAL_EMERGENCY_CLEAR (R346). -/
  | thermalEmergencyClear
  /-- COOLANT_FLOW_LOW (R346). -/
  | coolantFlowLow
  /-- COOLANT_FLOW_POWERDOWN (R346). -/
  | coolantFlowPowerdown
  /-- CKINT_EXPIRY (R328). -/
  | ckintExpiry
  /-- CKMIN_EXPIRY (R328). -/
  | ckminExpiry
  /-- CHECKPOINT_COMMIT (R329). -/
  | checkpointCommit
  /-- STAGING_MERGE_COMPLETE (R330). -/
  | stagingMergeComplete
  /-- INPUT_LOG_THRESHOLD (R333). -/
  | inputLogThreshold
  /-- ROLLBACK (R334). -/
  | rollback
  /-- REPLAY_END (R334). -/
  | replayEnd
  /-- CORRECTED_ERROR (R339). -/
  | correctedError
  /-- ROTATION_STEP_START (R335). -/
  | rotationStepStart
  /-- ROTATION_WARM_COMPLETE (R336). -/
  | rotationWarmComplete
  /-- ROUTER_MAP_UPDATE (R336). -/
  | routerMapUpdate
  /-- ROUTER_MAP_ACK (R336). -/
  | routerMapAck
  /-- SCREENING_COMPLETE (R338). -/
  | screeningComplete
  /-- VTILE_LOST (R340). -/
  | vtileLost
  /-- REPORT_WRITE (R341). -/
  | reportWrite
  /-- PERST_DEASSERT (R298). -/
  | perstDeassert
  /-- CONVENTIONAL_RESET (R306). -/
  | conventionalReset
  /-- BDLGO_WRITE (R298). -/
  | bdlgoWrite
  /-- BUNDLE_CHECK_DONE (R298). -/
  | bundleCheckDone
  /-- RAMP_NEIGHBOUR_HOLD (R344). -/
  | rampNeighbourHold
  /-- RAMP_WAIT_LIMIT (R344). -/
  | rampWaitLimit
  /-- REGION_RAMP_COMPLETE (R344). -/
  | regionRampComplete
  /-- LINK_TRAINING_DONE (R298). -/
  | linkTrainingDone
  /-- BIST_DONE (R298). -/
  | bistDone
  /-- LINK_DEGRADE (R301). -/
  | linkDegrade
  /-- HOST_LINK_DOWN (R306). -/
  | hostLinkDown
  /-- FLR_PF (R306). -/
  | flrPf
  /-- FLR_VF (R306). -/
  | flrVf
  /-- TSET_WRITE (R305). -/
  | tsetWrite
  /-- PTM_REQUEST (R305). -/
  | ptmRequest
  /-- REGION_RESET (R307). -/
  | regionReset
  /-- REGION_RESET_DONE (R307). -/
  | regionResetDone
  /-- MONITOR_RELOAD (R307). -/
  | monitorReload
  /-- MONITOR_RELOAD_DONE (R307). -/
  | monitorReloadDone
  /-- DOORBELL_WRITE (R308). -/
  | doorbellWrite
  /-- LOAD (R312). -/
  | load
  /-- START (R309). -/
  | start
  /-- STOP (R310). -/
  | stop
  /-- SWITCH (R320). -/
  | switch
  /-- EVICT (R322). -/
  | evict
  /-- WAIT_FOR (R309). -/
  | waitFor
  /-- COMPLETION_RECORD_WRITE (R308). -/
  | completionRecordWrite
  /-- TRANSLATION_WINDOW_WRITE (R313). -/
  | translationWindowWrite
  /-- PARTITION_FORM (R318). -/
  | partitionForm
  /-- PARTITION_DISSOLVE (R318). -/
  | partitionDissolve
  /-- PARTITION_ADMIT (R319). -/
  | partitionAdmit
  /-- PARTITION_CHANGE_DONE (R318). -/
  | partitionChangeDone
  /-- SCRUB_COMPLETE (R323). -/
  | scrubComplete
  /-- RECEIPT_SIGNED (R325). -/
  | receiptSigned
  /-- EVICTION_REQUEST (R351). -/
  | evictionRequest
  /-- EVICTION_ABORT (R353). -/
  | evictionAbort
  /-- EVICTION_FROZEN (R351). -/
  | evictionFrozen
  /-- EVICTION_SEND_DONE (R351). -/
  | evictionSendDone
  /-- FABRIC_DRAINED (R351). -/
  | fabricDrained
  /-- BLADE_UNLATCH (R353). -/
  | bladeUnlatch
  /-- SUPPLY_ABSENT_60S (R353). -/
  | supplyAbsent60s
  /-- NV_COUNTER_SAVE (R357). -/
  | nvCounterSave
  /-- RETIREMENT_LOG_COMMIT (R360). -/
  | retirementLogCommit
  /-- OPTICAL_DATA_CODEWORD (R349). -/
  | opticalDataCodeword
  /-- OPTICAL_ACK_CODEWORD (R349). -/
  | opticalAckCodeword
  /-- OPTICAL_IDLE_CODEWORD (R349). -/
  | opticalIdleCodeword
  /-- OPTICAL_TRAINING_CODEWORD (R349). -/
  | opticalTrainingCodeword
  /-- OPTICAL_SIGNAL_LOSS (R347). -/
  | opticalSignalLoss
  /-- LANE_LOCK_TIMEOUT (R349). -/
  | laneLockTimeout
  /-- REGISTER_WRITE (R304). -/
  | registerWrite
  /-- SUPPLY_BACK_IN_RANGE (R343). -/
  | supplyBackInRange
  /-- COOLANT_FLOW_RESTORED (R346). -/
  | coolantFlowRestored
  /-- RAMP_NEIGHBOUR_RELEASE (R344). -/
  | rampNeighbourRelease
  /-- TILE_FAILURE (R337). -/
  | tileFailure
  /-- STACK_LOST (R340). -/
  | stackLost
  /-- WELL_PAGE_LOST (R339). -/
  | wellPageLost
  /-- CHECKPOINT_PAGE_STREAMED (R329). -/
  | checkpointPageStreamed
  /-- LINK_LAYER_RETRY (R45). -/
  | linkLayerRetry
  /-- EVICTION_TARGET_WRITE (R351). -/
  | evictionTargetWrite
  /-- IEEE_1588_SYNC_MESSAGE (R305). -/
  | ieee1588SyncMessage
  deriving DecidableEq, Repr

end Sys2Proof
end

