-- ==== Sys2Proof/Config.lean ====
section
/-! DEFINITION. What an implementation fixes and the manual leaves open: silicon and factory constants, and the free
values of the model. Each is an opaque constant with no body, so no proof can see its value. -/

namespace Sys2Proof

/-- The panel serial: fused (R297, log entry 10). -/
opaque Config.serial : Word

/-- The silicon revision of the ident register (R297, log entry 10). -/
opaque Config.revision : BitVec 32

/-- A byte of the identity record of the EEPROM, set in the factory (R355, log entry 10). -/
opaque Config.identityByte : Nat → Byte

/-- The bytes of the firmware bundle signature check: whether a bundle's signature verifies (R296, log entry 10). -/
opaque Config.bundleSignatureHolds : List Byte → Bool

/-- A byte, by its place, of the signature that the Idhan controller makes of a receipt message (R325, log entry 10). -/
opaque Config.receiptSignature : List Byte → Nat → Byte

/-- The outgoing tenant that the n-th receipt names after a change that took regions from several tenants (R324, log
entry 20). -/
opaque Config.receiptOutgoing : Nat → Option (BitVec 4)

/-- The partition number that the n-th receipt names after a dissolution that leaves no partition, or several (R324, log
entry 20). -/
opaque Config.receiptPart : Nat → Byte

/-- The event of the fabric or of an engine that comes about at the n-th turn of the panel: which of the enabled
events comes next is not fixed by the manual (log entry 3). -/
opaque Config.event : Nat → Option (Instr × EvArgs)

/-- The events of engines, pumps and blocks of a tile that come about between two events of an access, and among them, as
`none`, events of the vector access of the same tc: by the turn, the context and the number of the later event (R74, log
entries 3 and 115). -/
opaque Config.between : Nat → Nat → Nat → List (Option (Instr × EvArgs))

/-- The package time that passes in the n-th tc, in ns: a tc is about 0.588 ns (R4, log entry 4). -/
opaque Config.elapsed : Nat → Nat

/-- A byte the manual leaves undefined (R80, log entry 12). -/
opaque Config.freeByte : Nat → Byte

/-- Baseline ring-oscillator frequency of a tile in kHz: factory (R356, log entry 10). -/
opaque Config.ringBase : Nat → BitVec 32

/-- The ring-oscillator margin loss of a tile measured at a time: silicon (R356, log entry 10). -/
opaque Config.marginAt : Nat → Word → BitVec 32

/-- The voltage of a tile in a tc, in mV: silicon (R356, log entry 10). -/
opaque Config.milliVolt : Nat → Nat → Nat

/-- The temperature of a tile in a tc, in tenths of a degree: silicon (R356, log entry 10). -/
opaque Config.deciCelsius : Nat → Nat → Int

end Sys2Proof
end

