-- ==== Sys2Proof/WellFormed.lean ====
section
/-! DEFINITION. Which terms of `Instr` stand for a word of the manual: the accepted lane types, register pairs and
numbers of R130 to R152. -/

namespace Sys2Proof

/-- The code of a lane type (R136). -/
def LaneTy.code : LaneTy → BitVec 4
  | .s8 => 0 | .s16 => 1 | .s32 => 2 | .s64 => 3 | .n8 => 4 | .n16 => 5 | .n32 => 6 | .n64 => 7
  | .f16 => 8 | .bf16 => 9 | .f32 => 10 | .f64 => 11 | .e4m3 => 12 | .e5m2 => 13 | .e2m1 => 14

/-- The lane type of a code; code 15 is none (R136). -/
def LaneTy.ofCode (c : BitVec 4) : Option LaneTy :=
  match c.toNat with
  | 0 => some .s8 | 1 => some .s16 | 2 => some .s32 | 3 => some .s64
  | 4 => some .n8 | 5 => some .n16 | 6 => some .n32 | 7 => some .n64
  | 8 => some .f16 | 9 => some .bf16 | 10 => some .f32 | 11 => some .f64
  | 12 => some .e4m3 | 13 => some .e5m2 | 14 => some .e2m1
  | _ => none

/-- A signed integer lane. -/
def LaneTy.isSigned : LaneTy → Bool
  | .s8 | .s16 | .s32 | .s64 => true
  | _ => false

/-- An unsigned integer lane. -/
def LaneTy.isUnsigned : LaneTy → Bool
  | .n8 | .n16 | .n32 | .n64 => true
  | _ => false

/-- An integer lane: types 0 to 7. -/
def LaneTy.isInt (t : LaneTy) : Bool := t.isSigned || t.isUnsigned

/-- A float lane of the vector unit: f16, bf16, f32, f64. -/
def LaneTy.isFloat : LaneTy → Bool
  | .f16 | .bf16 | .f32 | .f64 => true
  | _ => false

/-- Types 0 to 11 (R183). -/
def LaneTy.isLane (t : LaneTy) : Bool := t.isInt || t.isFloat

/-- The 8-bit and 4-bit types, which are the MX types of vmxq and vmxd (R136). -/
def LaneTy.isMx : LaneTy → Bool
  | .e4m3 | .e5m2 | .e2m1 => true
  | _ => false

/-- The types vdot accepts (R186). -/
def LaneTy.isDot : LaneTy → Bool
  | .f16 | .bf16 | .f32 | .f64 | .s8 | .s16 | .s32 | .n8 | .n16 | .n32 => true
  | _ => false

/-- The lower register of a pair is even (R130). -/
def isEven (r : Reg) : Bool := decide (r.toNat % 2 = 0)

/-- The 32-bit and 64-bit integer types. -/
def LaneTy.isWideInt : LaneTy → Bool
  | .s32 | .s64 | .n32 | .n64 => true
  | _ => false

/-- The 8-bit and 16-bit integer types. -/
def LaneTy.isNarrowInt : LaneTy → Bool
  | .s8 | .s16 | .n8 | .n16 => true
  | _ => false

/-- f32 or f64. -/
def LaneTy.isWideFloat : LaneTy → Bool
  | .f32 | .f64 => true
  | _ => false

/-- The pairs of fcvt, destination first; .sr only from f64 to f32 (R115, R181). -/
def fcvtPair (t s : LaneTy) (r : Bool) : Bool :=
  if r then decide (t = .f32) && decide (s = .f64)
  else (decide (t = .f32) && decide (s = .f64)) || (decide (t = .f64) && decide (s = .f32))
    || (t.isWideInt && s.isWideFloat) || (t.isWideFloat && s.isWideInt)

/-- The pairs of vcvt, destination first; .sr on the targets of R118 (R115, R194). -/
def vcvtPair (t s : LaneTy) (r : Bool) : Bool :=
  if r then (decide (t = .f32) && decide (s = .f64))
    || (decide (s = .f32) && (decide (t = .f16) || decide (t = .bf16) || t.isMx))
  else (decide (t = .f32) && decide (s = .f64)) || (decide (t = .f64) && decide (s = .f32))
    || (decide (s = .f32) && (decide (t = .f16) || decide (t = .bf16) || t.isMx))
    || (decide (t = .f32) && (decide (s = .f16) || decide (s = .bf16) || s.isMx))
    || (t.isWideInt && s.isWideFloat) || (t.isWideFloat && s.isWideInt)
    || (t.isNarrowInt && decide (s = .f32)) || (decide (t = .f32) && s.isNarrowInt)

/-- The output types of mst (R213). -/
def mstType (t : BitVec 5) : Bool := [2, 8, 9, 10, 11, 12, 13, 16, 17, 18].contains t.toNat

/-- The output types of mst that take a scale register; in every other the gx field is zero (R213). -/
def mstScaled (t : BitVec 5) : Bool := [8, 9, 12, 13, 16, 17, 18].contains t.toNat

/-- A term stands for a word of the manual; every event does. MWRS of fqhd, ptent and hfq are rows of their own. -/
def Instr.wf : Instr → Bool
  | .fcvt _ _ t s r => fcvtPair t s r
  | .vadd _ _ _ _ t => t.isLane
  | .vsub _ _ _ _ t => t.isLane
  | .vmul _ _ _ _ t => t.isLane
  | .vfma _ _ _ _ t => t.isFloat
  | .vfms _ _ _ _ t => t.isFloat
  | .vmin _ _ _ _ t => t.isLane
  | .vmax _ _ _ _ t => t.isLane
  | .vdot _ _ _ _ t => t.isDot
  | .vand _ _ _ _ t => t.isLane
  | .vor _ _ _ _ t => t.isLane
  | .vxor _ _ _ _ t => t.isLane
  | .vandn _ _ _ _ t => t.isLane
  | .vshl _ _ _ _ t => t.isInt
  | .vshr _ _ _ _ t => t.isInt
  | .vsra _ _ _ _ t => t.isInt
  | .vsel _ _ _ _ t => t.isLane
  | .vabs _ _ _ t => t.isLane
  | .vneg _ _ _ t => t.isLane
  | .vexp2 _ _ _ t => decide (t = .f32)
  | .vlog2 _ _ _ t => decide (t = .f32)
  | .vrcp _ _ _ t => decide (t = .f32) || decide (t = .f64)
  | .vrsq _ _ _ t => decide (t = .f32)
  | .vsqrt _ _ _ t => decide (t = .f32) || decide (t = .f64)
  | .vrng _ _ t => t.isUnsigned
  | .vcmpEq _ _ _ _ t => t.isLane
  | .vcmpNe _ _ _ _ t => t.isLane
  | .vcmpLt _ _ _ _ t => t.isLane
  | .vcmpLe _ _ _ _ t => t.isLane
  | .vredSum _ _ _ t => t.isLane
  | .vredMin _ _ _ t => t.isLane
  | .vredMax _ _ _ t => t.isLane
  | .vld _ _ _ _ t => t.isLane
  | .vst _ _ _ _ t => t.isLane
  | .vlds _ _ _ _ t => t.isLane
  | .vsts _ _ _ _ t => t.isLane
  | .vgat _ _ _ _ t => t.isLane
  | .vsct _ _ _ _ t => t.isLane
  | .vbcast _ _ _ t => t.isLane
  | .vext _ _ _ t => t.isLane
  | .vins _ _ _ _ t => t.isLane
  | .vperm _ _ _ _ t => t.isLane
  | .vcvt _ _ _ t s r => vcvtPair t s r
  | .vmxq _ a t => t.isMx && isEven a
  | .vmxd d _ t => t.isMx && isEven d
  | .mst _ _ _ x t => mstType t && (decide (x = 0) || mstScaled t)
  | .mma _ _ _ _ t => decide (t.toNat ≤ 0x10)
  | .cpyr _ _ _ _ _ o => decide (o ≠ 3)
  | .rds _ w => decide (w.toNat < 12)
  | .wrs _ w => decide (w.toNat < 12)
  | .mrds _ w => decide (w.toNat < 9)
  | .mwrs _ w => decide (w.toNat < 9) && decide (w ≠ 1) && decide (w ≠ 6) && decide (w ≠ 7)
  | .add _ _ _ | .sub _ _ _ | .and _ _ _ | .or _ _ _
  | .xor _ _ _ | .andn _ _ _ | .orn _ _ _ | .shl _ _ _
  | .shr _ _ _ | .sra _ _ _ | .rol _ _ _ | .ror _ _ _
  | .addw _ _ _ | .subw _ _ _ | .mulw _ _ _ | .shlw _ _ _
  | .shrw _ _ _ | .sraw _ _ _ | .mul _ _ _ | .mulh _ _ _
  | .mulhn _ _ _ | .div _ _ _ | .divn _ _ _ | .rem _ _ _
  | .remn _ _ _ | .min _ _ _ | .max _ _ _ | .minn _ _ _
  | .maxn _ _ _ | .slt _ _ _ | .sltn _ _ _ | .seq _ _ _
  | .clz _ _ | .ctz _ _ | .popc _ _ | .brev _ _
  | .bswap _ _ | .sext _ _ _ | .zext _ _ _ | .csel _ _ _ _
  | .addi _ _ _ | .andi _ _ _ | .ori _ _ _ | .xori _ _ _
  | .shli _ _ _ | .shri _ _ _ | .srai _ _ _ | .slti _ _ _
  | .sltni _ _ _ | .lui _ _ | .addpc _ _ | .ldk _ _
  | .addk _ _ _ | .cbnd _ _ _ | .cinc _ _ _ | .cperm _ _ _
  | .cbase _ _ | .climit _ _ | .cgetp _ _ | .ctag _ _
  | .cuntag _ _ | .csub _ _ _ | .cinci _ _ _ | .beq _ _ _
  | .bne _ _ _ | .blt _ _ _ | .bge _ _ _ | .bltn _ _ _
  | .bgen _ _ _ | .bz _ _ | .bnz _ _ | .jal _ _
  | .jalr _ _ _ | .ldb _ _ _ | .ldbn _ _ _ | .ldh _ _ _
  | .ldhn _ _ _ | .ldw _ _ _ | .ldwn _ _ _ | .ldd _ _ _
  | .ldc _ _ _ | .stb _ _ _ | .sth _ _ _ | .stw _ _ _
  | .std _ _ _ | .stc _ _ _ | .amoadd _ _ _ _ | .amoand _ _ _ _
  | .amoor _ _ _ _ | .amoxor _ _ _ _ | .amomin _ _ _ _ | .amomax _ _ _ _
  | .amominn _ _ _ _ | .amomaxn _ _ _ _ | .amoswp _ _ _ _ | .cas _ _ _ _
  | .fadd _ _ _ _ | .fsub _ _ _ _ | .fmul _ _ _ _ | .fdiv _ _ _ _
  | .fsqrt _ _ _ | .fma _ _ _ _ _ | .fms _ _ _ _ _ | .fnma _ _ _ _ _
  | .fnms _ _ _ _ _ | .fmin _ _ _ _ | .fmax _ _ _ _ | .fsgnJ _ _ _ _
  | .fsgnN _ _ _ _ | .fsgnX _ _ _ _ | .fclass _ _ _ | .fcmpEq _ _ _ _
  | .fcmpLt _ _ _ _ | .fcmpLe _ _ _ _ | .fmvk _ _ _ | .mand _ _ _
  | .mor _ _ _ | .mxor _ _ _ | .mnot _ _ | .mpop _ _
  | .mfst _ _ | .mset _ _ | .mget _ _ | .rep _ _
  | .pbindIn _ _ _ | .pbindOut _ _ _ | .pdrain _ | .pstat _ _
  | .pfree _ | .mclaim _ _ | .mfree _ | .mzero _
  | .mld _ _ _ | .mwait _ | .mstat _ _ | .cpy _ _ _ _
  | .cpyt _ _ _ _ | .cpyxOut _ _ _ _ | .cpyxIn _ _ _ _ | .cwait _
  | .cpoll _ _ | .cabort _ | .send _ _ _ | .sendT _ _ _
  | .recv _ _ _ | .recvT _ _ _ | .sendv _ _ _ | .recvv _ _ _
  | .sendb _ _ _ _ | .recvb _ _ _ _ | .select _ _ _ _ | .selectT _ _ _ _
  | .probe _ _ | .chst _ _ | .chgive _ _ | .latarr _ _
  | .latdrop _ | .latwait _ _ | .spawn _ _ _ _ | .exit
  | .yield | .time _ | .rng _ | .rngskip _
  | .fence _ | .chkpt | .trap _ | .brk _
  | .eret _ | .slotrd _ _ | .slotwr _ _ _ | .slotctlThaw _ _
  | .slotctlFreeze _ _ | .slotctlKill _ _ | .tlbinv _ | .idle
  | .mwrsFqhd _ | .mwrsPtent _ | .mwrsHfq _ | .illegalEncoding _
  | .networkStart | .poolEntryTakesSlot | .ageingThreshold | .offerArrives
  | .claimArrives | .confirmationRequestArrives | .grantArrives | .refusalArrives
  | .withdrawalArrives | .goArrives | .firstFlitArrives | .lastByteWritten
  | .acknowledgementArrives | .closeNoticeArrives | .deliveryFails | .deadlinePasses
  | .virtualChannelFreed | .stubForward | .messageReturnedToSource | .latchArrivalMsg
  | .latchDropMsg | .latchLeaveMsg | .phaseMulticastApplied | .deadboltProbeStart
  | .deadboltProbeMessage | .deadboltReport | .translationWalkComplete | .translationEntryApplied
  | .tlbinvComplete | .pageWaiterRelease | .matrixCommandComplete | .copyElement
  | .cpyxElementAck | .cpyxReadDataArrives | .cpyxWatchdogExpiry | .cpyxAbortTimeout
  | .cpyxPauseAckTimeout | .inputPumpPrefetch | .outputPumpWrite | .deferredFaultRecordWrite
  | .monitorWake | .monitorTimeout | .hfqAppendComplete | .fansResume
  | .fansNext | .fansKill | .freezeRequestAccepted | .tileQuiescent
  | .freezeRelease | .supplyOutOfRange | .supplyPowerdown | .regionOvercurrent
  | .powerEmergencyClear | .thermalEmergency | .thermalEmergencyClear | .coolantFlowLow
  | .coolantFlowPowerdown | .ckintExpiry | .ckminExpiry | .checkpointCommit
  | .stagingMergeComplete | .inputLogThreshold | .rollback | .replayEnd
  | .correctedError | .rotationStepStart | .rotationWarmComplete | .routerMapUpdate
  | .routerMapAck | .screeningComplete | .vtileLost | .reportWrite
  | .perstDeassert | .conventionalReset | .bdlgoWrite | .bundleCheckDone
  | .rampNeighbourHold | .rampWaitLimit | .regionRampComplete | .linkTrainingDone
  | .bistDone | .linkDegrade | .hostLinkDown | .flrPf
  | .flrVf | .tsetWrite | .ptmRequest | .regionReset
  | .regionResetDone | .monitorReload | .monitorReloadDone | .doorbellWrite
  | .load | .start | .stop | .switch
  | .evict | .waitFor | .completionRecordWrite | .translationWindowWrite
  | .partitionForm | .partitionDissolve | .partitionAdmit | .partitionChangeDone
  | .scrubComplete | .receiptSigned | .evictionRequest | .evictionAbort
  | .evictionFrozen | .evictionSendDone | .fabricDrained | .bladeUnlatch
  | .supplyAbsent60s | .nvCounterSave | .retirementLogCommit | .opticalDataCodeword
  | .opticalAckCodeword | .opticalIdleCodeword | .opticalTrainingCodeword | .opticalSignalLoss
  | .laneLockTimeout | .registerWrite | .supplyBackInRange | .coolantFlowRestored
  | .rampNeighbourRelease | .tileFailure | .stackLost | .wellPageLost
  | .checkpointPageStreamed | .linkLayerRetry | .evictionTargetWrite | .ieee1588SyncMessage => true

end Sys2Proof
end

