-- ==== Sys2Proof/Decode.lean ====
section
/-! DEFINITION. The decoder, total on 32-bit words and rejecting by name (R133 to R152), and after it the encoder,
written from the same tables. -/

namespace Sys2Proof

/-- Why a word is not an instruction (R152). -/
inductive DecodeErr where
  /-- An undefined major opcode or the reserved major 0x7F. -/
  | badMajor
  /-- An undefined fn10, fn7, fn3, sub-operation or shape within a defined major. -/
  | badFunction
  /-- A nonzero value in a field marked zero, or bit 0 of a C-format word. -/
  | badZeroField
  /-- A type code, or pair of types, that the instruction does not accept. -/
  | badType
  /-- A mask-register field above 7. -/
  | badMask
  /-- An odd register where a pair is named. -/
  | badPair
  /-- The deadline bit outside send, recv and select. -/
  | badDeadline
  /-- A select base with end8 [5:0] nonzero. -/
  | badBase
  /-- A status-word or monitor-word number not listed. -/
  | badWordNumber
  deriving DecidableEq, Repr

/-- What decoding a word gives. -/
abbrev Decoded := Except DecodeErr Instr

/-- Go on only if a field is as the encoding requires. -/
def need (c : Bool) (e : DecodeErr) (k : Decoded) : Decoded :=
  match c with
  | true => k
  | false => .error e

/-- The major opcode, bits [31:25]. -/
def fMajor (w : BitVec 32) : BitVec 7 := w.extractLsb' 25 7
/-- Bits [24:20]: d, or a of the B format. -/
def fD (w : BitVec 32) : Reg := w.extractLsb' 20 5
/-- Bits [19:15]: a, or b of the B format. -/
def fA (w : BitVec 32) : Reg := w.extractLsb' 15 5
/-- Bits [14:10]: b. -/
def fB (w : BitVec 32) : Reg := w.extractLsb' 10 5
/-- Bits [9:5]: c. -/
def fC (w : BitVec 32) : Reg := w.extractLsb' 5 5
/-- Bits [4:0]. -/
def fLow5 (w : BitVec 32) : BitVec 5 := w.extractLsb' 0 5
/-- Bits [9:0]: fn10. -/
def fFn10 (w : BitVec 32) : BitVec 10 := w.extractLsb' 0 10
/-- Bits [14:0]: imm15 or disp15. -/
def fImm15 (w : BitVec 32) : BitVec 15 := w.extractLsb' 0 15
/-- Bits [19:0]: imm20 or disp20. -/
def fImm20 (w : BitVec 32) : BitVec 20 := w.extractLsb' 0 20
/-- Bits [14:7]: k8. -/
def fK8 (w : BitVec 32) : BitVec 8 := w.extractLsb' 7 8
/-- Bits [6:0]: fn7. -/
def fFn7 (w : BitVec 32) : BitVec 7 := w.extractLsb' 0 7
/-- Bits [9:7]: mk3. -/
def fMk (w : BitVec 32) : MReg := w.extractLsb' 7 3
/-- Bits [6:3]: ty4 of the V format. -/
def fTy4 (w : BitVec 32) : BitVec 4 := w.extractLsb' 3 4
/-- Bits [2:0]: fn3. -/
def fFn3 (w : BitVec 32) : BitVec 3 := w.extractLsb' 0 3
/-- Bits [13:10]: the source type of a conversion. -/
def fSrcTy (w : BitVec 32) : BitVec 4 := w.extractLsb' 10 4
/-- Bits [24:22]: acc of the M format. -/
def fAcc (w : BitVec 32) : BitVec 3 := w.extractLsb' 22 3
/-- Bits [19:12]: end8 of the C format. -/
def fEnd (w : BitVec 32) : BitVec 8 := w.extractLsb' 12 8
/-- Bits [11:7]: s of the C format. -/
def fS (w : BitVec 32) : Reg := w.extractLsb' 7 5
/-- Bits [6:2]: x of the C format. -/
def fX (w : BitVec 32) : Reg := w.extractLsb' 2 5
/-- Bits [24:10]: imm15 of trap and brk. -/
def fTrap (w : BitVec 32) : BitVec 15 := w.extractLsb' 10 15

/-- Bits [hi:lo], given as their lowest bit and number, are zero. -/
def zeroAt (w : BitVec 32) (lo n : Nat) : Bool := decide (w.extractLsb' lo n = 0#n)

/-- A 5-bit field names a mask register (R130). -/
def isMask (r : Reg) : Bool := decide (r.toNat < 8)
/-- The mask register a 5-bit field names. -/
def asMask (r : Reg) : MReg := r.extractLsb' 0 3

/-- Major 0x00 (R138). -/
def decInt (w : BitVec 32) : Decoded :=
  match (fFn10 w).toNat with
  | 0x001 => .ok (.add (fD w) (fA w) (fB w))
  | 0x002 => .ok (.sub (fD w) (fA w) (fB w))
  | 0x003 => .ok (.and (fD w) (fA w) (fB w))
  | 0x004 => .ok (.or (fD w) (fA w) (fB w))
  | 0x005 => .ok (.xor (fD w) (fA w) (fB w))
  | 0x006 => .ok (.andn (fD w) (fA w) (fB w))
  | 0x007 => .ok (.orn (fD w) (fA w) (fB w))
  | 0x008 => .ok (.shl (fD w) (fA w) (fB w))
  | 0x009 => .ok (.shr (fD w) (fA w) (fB w))
  | 0x00A => .ok (.sra (fD w) (fA w) (fB w))
  | 0x00B => .ok (.rol (fD w) (fA w) (fB w))
  | 0x00C => .ok (.ror (fD w) (fA w) (fB w))
  | 0x010 => .ok (.addw (fD w) (fA w) (fB w))
  | 0x011 => .ok (.subw (fD w) (fA w) (fB w))
  | 0x012 => .ok (.mulw (fD w) (fA w) (fB w))
  | 0x013 => .ok (.shlw (fD w) (fA w) (fB w))
  | 0x014 => .ok (.shrw (fD w) (fA w) (fB w))
  | 0x015 => .ok (.sraw (fD w) (fA w) (fB w))
  | 0x020 => .ok (.mul (fD w) (fA w) (fB w))
  | 0x021 => .ok (.mulh (fD w) (fA w) (fB w))
  | 0x022 => .ok (.mulhn (fD w) (fA w) (fB w))
  | 0x023 => .ok (.div (fD w) (fA w) (fB w))
  | 0x024 => .ok (.divn (fD w) (fA w) (fB w))
  | 0x025 => .ok (.rem (fD w) (fA w) (fB w))
  | 0x026 => .ok (.remn (fD w) (fA w) (fB w))
  | 0x030 => .ok (.min (fD w) (fA w) (fB w))
  | 0x031 => .ok (.max (fD w) (fA w) (fB w))
  | 0x032 => .ok (.minn (fD w) (fA w) (fB w))
  | 0x033 => .ok (.maxn (fD w) (fA w) (fB w))
  | 0x034 => .ok (.slt (fD w) (fA w) (fB w))
  | 0x035 => .ok (.sltn (fD w) (fA w) (fB w))
  | 0x036 => .ok (.seq (fD w) (fA w) (fB w))
  | 0x040 => need (zeroAt w 10 5) .badZeroField (.ok (.clz (fD w) (fA w)))
  | 0x041 => need (zeroAt w 10 5) .badZeroField (.ok (.ctz (fD w) (fA w)))
  | 0x042 => need (zeroAt w 10 5) .badZeroField (.ok (.popc (fD w) (fA w)))
  | 0x043 => need (zeroAt w 10 5) .badZeroField (.ok (.brev (fD w) (fA w)))
  | 0x044 => need (zeroAt w 10 5) .badZeroField (.ok (.bswap (fD w) (fA w)))
  | _ =>
    match (w.extractLsb' 6 4).toNat with
    | 4 => need (zeroAt w 10 5) .badZeroField (.ok (.sext (fD w) (fA w) (w.extractLsb' 0 6)))
    | 5 => need (zeroAt w 10 5) .badZeroField (.ok (.zext (fD w) (fA w) (w.extractLsb' 0 6)))
    | _ => .error .badFunction

/-- Major 0x0E (R139). -/
def decCap (w : BitVec 32) : Decoded :=
  match (fFn10 w).toNat with
  | 0x001 => .ok (.cbnd (fD w) (fA w) (fB w))
  | 0x002 => .ok (.cinc (fD w) (fA w) (fB w))
  | 0x003 => .ok (.cperm (fD w) (fA w) (fB w))
  | 0x004 => need (zeroAt w 10 5) .badZeroField (.ok (.cbase (fD w) (fA w)))
  | 0x005 => need (zeroAt w 10 5) .badZeroField (.ok (.climit (fD w) (fA w)))
  | 0x006 => need (zeroAt w 10 5) .badZeroField (.ok (.cgetp (fD w) (fA w)))
  | 0x007 => need (zeroAt w 10 5) .badZeroField (.ok (.ctag (fD w) (fA w)))
  | 0x008 => need (zeroAt w 10 5) .badZeroField (.ok (.cuntag (fD w) (fA w)))
  | 0x009 => .ok (.csub (fD w) (fA w) (fB w))
  | _ => .error .badFunction

/-- Major 0x2D: the atomics (R140). -/
def decAtomic (w : BitVec 32) : Decoded :=
  need (zeroAt w 5 5) .badZeroField <|
  match (w.extractLsb' 0 4).toNat with
  | 0 => .ok (.amoadd (fD w) (fA w) (fB w) (w.getLsbD 4))
  | 1 => .ok (.amoand (fD w) (fA w) (fB w) (w.getLsbD 4))
  | 2 => .ok (.amoor (fD w) (fA w) (fB w) (w.getLsbD 4))
  | 3 => .ok (.amoxor (fD w) (fA w) (fB w) (w.getLsbD 4))
  | 4 => .ok (.amomin (fD w) (fA w) (fB w) (w.getLsbD 4))
  | 5 => .ok (.amomax (fD w) (fA w) (fB w) (w.getLsbD 4))
  | 6 => .ok (.amominn (fD w) (fA w) (fB w) (w.getLsbD 4))
  | 7 => .ok (.amomaxn (fD w) (fA w) (fB w) (w.getLsbD 4))
  | 8 => .ok (.amoswp (fD w) (fA w) (fB w) (w.getLsbD 4))
  | 9 => .ok (.cas (fD w) (fA w) (fB w) (w.getLsbD 4))
  | _ => .error .badFunction

/-- Major 0x30: scalar float arithmetic (R141). -/
def decFloat (w : BitVec 32) : Decoded :=
  match (w.extractLsb' 0 4).toNat with
  | 0 => need (zeroAt w 5 5) .badZeroField (.ok (.fadd (fD w) (fA w) (fB w) (w.getLsbD 4)))
  | 1 => need (zeroAt w 5 5) .badZeroField (.ok (.fsub (fD w) (fA w) (fB w) (w.getLsbD 4)))
  | 2 => need (zeroAt w 5 5) .badZeroField (.ok (.fmul (fD w) (fA w) (fB w) (w.getLsbD 4)))
  | 3 => need (zeroAt w 5 5) .badZeroField (.ok (.fdiv (fD w) (fA w) (fB w) (w.getLsbD 4)))
  | 4 => need (zeroAt w 5 10) .badZeroField (.ok (.fsqrt (fD w) (fA w) (w.getLsbD 4)))
  | 5 => .ok (.fma (fD w) (fA w) (fB w) (fC w) (w.getLsbD 4))
  | 6 => .ok (.fms (fD w) (fA w) (fB w) (fC w) (w.getLsbD 4))
  | 7 => .ok (.fnma (fD w) (fA w) (fB w) (fC w) (w.getLsbD 4))
  | 8 => .ok (.fnms (fD w) (fA w) (fB w) (fC w) (w.getLsbD 4))
  | 9 => need (zeroAt w 5 5) .badZeroField (.ok (.fmin (fD w) (fA w) (fB w) (w.getLsbD 4)))
  | 10 => need (zeroAt w 5 5) .badZeroField (.ok (.fmax (fD w) (fA w) (fB w) (w.getLsbD 4)))
  | 11 => need (zeroAt w 5 5) .badZeroField (.ok (.fsgnJ (fD w) (fA w) (fB w) (w.getLsbD 4)))
  | 12 => need (zeroAt w 5 5) .badZeroField (.ok (.fsgnN (fD w) (fA w) (fB w) (w.getLsbD 4)))
  | 13 => need (zeroAt w 5 5) .badZeroField (.ok (.fsgnX (fD w) (fA w) (fB w) (w.getLsbD 4)))
  | 14 => need (zeroAt w 5 10) .badZeroField (.ok (.fclass (fD w) (fA w) (w.getLsbD 4)))
  | _ => .error .badFunction

/-- fcvt: the two type codes and their pair (R141, R181). -/
def decFcvt (w : BitVec 32) : Decoded :=
  match LaneTy.ofCode (w.extractLsb' 3 4), LaneTy.ofCode (fSrcTy w) with
  | some t, some s =>
    need (fcvtPair t s (w.getLsbD 2)) .badType (.ok (.fcvt (fD w) (fA w) t s (w.getLsbD 2)))
  | _, _ => .error .badType

/-- Major 0x31: fcmp and fcvt (R141). -/
def decFcmp (w : BitVec 32) : Decoded :=
  match (w.extractLsb' 0 2).toNat with
  | 0 => need (zeroAt w 3 7) .badZeroField (.ok (.fcmpEq (fD w) (fA w) (fB w) (w.getLsbD 2)))
  | 1 => need (zeroAt w 3 7) .badZeroField (.ok (.fcmpLt (fD w) (fA w) (fB w) (w.getLsbD 2)))
  | 2 => need (zeroAt w 3 7) .badZeroField (.ok (.fcmpLe (fD w) (fA w) (fB w) (w.getLsbD 2)))
  | _ => need (zeroAt w 7 3 && zeroAt w 14 1) .badZeroField (decFcvt w)

/-- A vector word whose lane type is accepted. -/
def decV (w : BitVec 32) (accepts : LaneTy → Bool) (k : LaneTy → Decoded) : Decoded :=
  match LaneTy.ofCode (fTy4 w) with
  | some t => need (accepts t) .badType (k t)
  | none => .error .badType

/-- Major 0x33 (R142, R185, R186). -/
def decV33 (w : BitVec 32) : Decoded :=
  match (fFn3 w).toNat with
  | 0 => decV w LaneTy.isLane fun t => .ok (.vadd (fD w) (fA w) (fB w) (fMk w) t)
  | 1 => decV w LaneTy.isLane fun t => .ok (.vsub (fD w) (fA w) (fB w) (fMk w) t)
  | 2 => decV w LaneTy.isLane fun t => .ok (.vmul (fD w) (fA w) (fB w) (fMk w) t)
  | 3 => decV w LaneTy.isFloat fun t => .ok (.vfma (fD w) (fA w) (fB w) (fMk w) t)
  | 4 => decV w LaneTy.isFloat fun t => .ok (.vfms (fD w) (fA w) (fB w) (fMk w) t)
  | 5 => decV w LaneTy.isLane fun t => .ok (.vmin (fD w) (fA w) (fB w) (fMk w) t)
  | 6 => decV w LaneTy.isLane fun t => .ok (.vmax (fD w) (fA w) (fB w) (fMk w) t)
  | _ => decV w LaneTy.isDot fun t => .ok (.vdot (fD w) (fA w) (fB w) (fMk w) t)

/-- Major 0x34 (R142, R187). -/
def decV34 (w : BitVec 32) : Decoded :=
  match (fFn3 w).toNat with
  | 0 => decV w LaneTy.isLane fun t => .ok (.vand (fD w) (fA w) (fB w) (fMk w) t)
  | 1 => decV w LaneTy.isLane fun t => .ok (.vor (fD w) (fA w) (fB w) (fMk w) t)
  | 2 => decV w LaneTy.isLane fun t => .ok (.vxor (fD w) (fA w) (fB w) (fMk w) t)
  | 3 => decV w LaneTy.isLane fun t => .ok (.vandn (fD w) (fA w) (fB w) (fMk w) t)
  | 4 => decV w LaneTy.isInt fun t => .ok (.vshl (fD w) (fA w) (fB w) (fMk w) t)
  | 5 => decV w LaneTy.isInt fun t => .ok (.vshr (fD w) (fA w) (fB w) (fMk w) t)
  | 6 => decV w LaneTy.isInt fun t => .ok (.vsra (fD w) (fA w) (fB w) (fMk w) t)
  | _ => decV w LaneTy.isLane fun t => .ok (.vsel (fD w) (fA w) (fB w) (fMk w) t)

/-- f32 alone. -/
def onlyF32 (t : LaneTy) : Bool := decide (t = .f32)
/-- f32 or f64. -/
def f32OrF64 (t : LaneTy) : Bool := decide (t = .f32) || decide (t = .f64)

/-- Major 0x35 (R142, R185, R188). -/
def decV35 (w : BitVec 32) : Decoded :=
  need (zeroAt w 10 5) .badZeroField <|
  match (fFn3 w).toNat with
  | 0 => decV w LaneTy.isLane fun t => .ok (.vabs (fD w) (fA w) (fMk w) t)
  | 1 => decV w LaneTy.isLane fun t => .ok (.vneg (fD w) (fA w) (fMk w) t)
  | 2 => decV w onlyF32 fun t => .ok (.vexp2 (fD w) (fA w) (fMk w) t)
  | 3 => decV w onlyF32 fun t => .ok (.vlog2 (fD w) (fA w) (fMk w) t)
  | 4 => decV w f32OrF64 fun t => .ok (.vrcp (fD w) (fA w) (fMk w) t)
  | 5 => decV w onlyF32 fun t => .ok (.vrsq (fD w) (fA w) (fMk w) t)
  | 6 => decV w f32OrF64 fun t => .ok (.vsqrt (fD w) (fA w) (fMk w) t)
  | _ => need (zeroAt w 15 5) .badZeroField <|
      decV w LaneTy.isUnsigned fun t => .ok (.vrng (fD w) (fMk w) t)

/-- Major 0x36: the vector compares (R142, R189). -/
def decV36 (w : BitVec 32) : Decoded :=
  need (!w.getLsbD 2) .badFunction <|
  need (isMask (fD w)) .badMask <|
  decV w LaneTy.isLane fun t =>
    match (w.extractLsb' 0 2).toNat with
    | 0 => .ok (.vcmpEq (asMask (fD w)) (fA w) (fB w) (fMk w) t)
    | 1 => .ok (.vcmpNe (asMask (fD w)) (fA w) (fB w) (fMk w) t)
    | 2 => .ok (.vcmpLt (asMask (fD w)) (fA w) (fB w) (fMk w) t)
    | _ => .ok (.vcmpLe (asMask (fD w)) (fA w) (fB w) (fMk w) t)

/-- Major 0x37: the reductions (R142, R190). -/
def decV37 (w : BitVec 32) : Decoded :=
  match (fFn3 w).toNat with
  | 0 => need (zeroAt w 10 5) .badZeroField <| decV w LaneTy.isLane fun t => .ok (.vredSum (fD w) (fA w) (fMk w) t)
  | 1 => need (zeroAt w 10 5) .badZeroField <| decV w LaneTy.isLane fun t => .ok (.vredMin (fD w) (fA w) (fMk w) t)
  | 2 => need (zeroAt w 10 5) .badZeroField <| decV w LaneTy.isLane fun t => .ok (.vredMax (fD w) (fA w) (fMk w) t)
  | _ => .error .badFunction

/-- Major 0x38: vector memory (R142, R191, R192). -/
def decV38 (w : BitVec 32) : Decoded :=
  match (fFn3 w).toNat with
  | 0 => decV w LaneTy.isLane fun t => .ok (.vld (fD w) (fA w) (fB w) (fMk w) t)
  | 1 => decV w LaneTy.isLane fun t => .ok (.vst (fD w) (fA w) (fB w) (fMk w) t)
  | 2 => decV w LaneTy.isLane fun t => .ok (.vlds (fD w) (fA w) (fB w) (fMk w) t)
  | 3 => decV w LaneTy.isLane fun t => .ok (.vsts (fD w) (fA w) (fB w) (fMk w) t)
  | 4 => decV w LaneTy.isLane fun t => .ok (.vgat (fD w) (fA w) (fB w) (fMk w) t)
  | 5 => decV w LaneTy.isLane fun t => .ok (.vsct (fD w) (fA w) (fB w) (fMk w) t)
  | _ => .error .badFunction

/-- vcvt: the two type codes and their pair (R142, R194). -/
def decVcvt (w : BitVec 32) : Decoded :=
  match LaneTy.ofCode (fTy4 w), LaneTy.ofCode (fSrcTy w) with
  | some t, some s =>
    need (vcvtPair t s (w.getLsbD 14)) .badType (.ok (.vcvt (fD w) (fA w) (fMk w) t s (w.getLsbD 14)))
  | _, _ => .error .badType

/-- Major 0x39: vector moves and conversions (R142, R193 to R195). -/
def decV39 (w : BitVec 32) : Decoded :=
  match (fFn3 w).toNat with
  | 0 => need (zeroAt w 10 5) .badZeroField <| decV w LaneTy.isLane fun t => .ok (.vbcast (fD w) (fA w) (fMk w) t)
  | 1 => need (zeroAt w 7 3) .badZeroField <| decV w LaneTy.isLane fun t => .ok (.vext (fD w) (fA w) (fB w) t)
  | 2 => decV w LaneTy.isLane fun t => .ok (.vins (fD w) (fA w) (fB w) (fMk w) t)
  | 3 => decV w LaneTy.isLane fun t => .ok (.vperm (fD w) (fA w) (fB w) (fMk w) t)
  | 4 => decVcvt w
  | 5 => need (zeroAt w 7 3 && zeroAt w 10 5) .badZeroField <|
      decV w LaneTy.isMx fun t => need (isEven (fA w)) .badPair (.ok (.vmxq (fD w) (fA w) t))
  | 6 => need (zeroAt w 7 3 && zeroAt w 15 5) .badZeroField <|
      decV w LaneTy.isMx fun t => need (isEven (fD w)) .badPair (.ok (.vmxd (fD w) (fB w) t))
  | _ => .error .badFunction

/-- Major 0x3A: the mask instructions (R143, R196). -/
def decMask (w : BitVec 32) : Decoded :=
  match (fFn10 w).toNat with
  | 0 => need (isMask (fD w) && isMask (fA w) && isMask (fB w)) .badMask
      (.ok (.mand (asMask (fD w)) (asMask (fA w)) (asMask (fB w))))
  | 1 => need (isMask (fD w) && isMask (fA w) && isMask (fB w)) .badMask
      (.ok (.mor (asMask (fD w)) (asMask (fA w)) (asMask (fB w))))
  | 2 => need (isMask (fD w) && isMask (fA w) && isMask (fB w)) .badMask
      (.ok (.mxor (asMask (fD w)) (asMask (fA w)) (asMask (fB w))))
  | 3 => need (zeroAt w 10 5) .badZeroField <| need (isMask (fD w) && isMask (fA w)) .badMask
      (.ok (.mnot (asMask (fD w)) (asMask (fA w))))
  | 4 => need (zeroAt w 10 5) .badZeroField <| need (isMask (fA w)) .badMask (.ok (.mpop (fD w) (asMask (fA w))))
  | 5 => need (zeroAt w 10 5) .badZeroField <| need (isMask (fA w)) .badMask (.ok (.mfst (fD w) (asMask (fA w))))
  | 6 => need (zeroAt w 10 5) .badZeroField <| need (isMask (fD w)) .badMask (.ok (.mset (asMask (fD w)) (fA w)))
  | 7 => need (zeroAt w 10 5) .badZeroField <| need (isMask (fA w)) .badMask (.ok (.mget (fD w) (asMask (fA w))))
  | _ => .error .badFunction

/-- Major 0x3C: the pump instructions (R143). -/
def decPump (w : BitVec 32) : Decoded :=
  need (zeroAt w 6 4) .badFunction <|
  match (w.extractLsb' 2 4).toNat with
  | 0 => need (zeroAt w 20 5) .badZeroField (.ok (.pbindIn (fA w) (fB w) (w.extractLsb' 0 2)))
  | 1 => need (zeroAt w 20 5) .badZeroField (.ok (.pbindOut (fA w) (fB w) (w.extractLsb' 0 2)))
  | 2 => need (zeroAt w 10 15) .badZeroField (.ok (.pdrain (w.extractLsb' 0 2)))
  | 4 => need (zeroAt w 10 10) .badZeroField (.ok (.pstat (fD w) (w.extractLsb' 0 2)))
  | 6 => need (zeroAt w 10 15) .badZeroField (.ok (.pfree (w.extractLsb' 0 2)))
  | _ => .error .badFunction

/-- Major 0x50: mclaim and its shape (R144). -/
def decMclaim (w : BitVec 32) : Decoded :=
  need (zeroAt w 2 20) .badZeroField <|
  match (w.extractLsb' 0 2).toNat with
  | 0 => .ok (.mclaim (fAcc w) .f32)
  | 1 => .ok (.mclaim (fAcc w) .s32)
  | 2 => .ok (.mclaim (fAcc w) .f64)
  | _ => .error .badFunction

/-- Major 0x54: mst, its output type and its scale field (R144, R213). -/
def decMst (w : BitVec 32) : Decoded :=
  need (zeroAt w 20 2) .badZeroField <|
  need (mstType (fLow5 w)) .badType <|
  need (decide (fC w = 0) || mstScaled (fLow5 w)) .badZeroField
    (.ok (.mst (fAcc w) (fA w) (fB w) (fC w) (fLow5 w)))

/-- Major 0x5C: cwait, cpoll and cabort (R146). -/
def decCwait (w : BitVec 32) : Decoded :=
  need (zeroAt w 2 13) .badZeroField <|
  match (w.extractLsb' 0 2).toNat with
  | 0 => need (zeroAt w 20 5) .badZeroField (.ok (.cwait (fA w)))
  | 1 => .ok (.cpoll (fD w) (fA w))
  | 2 => need (zeroAt w 20 5) .badZeroField (.ok (.cabort (fA w)))
  | _ => .error .badFunction

/-- A C-format word: bit 0 is zero, and t is zero but for the deadline forms (R147). -/
def decC (w : BitVec 32) (timed : Bool) (k : Decoded) : Decoded :=
  need (!w.getLsbD 0) .badZeroField <|
  need (timed || !w.getLsbD 1) .badDeadline k

/-- Major 0x66: select (R147). -/
def decSelect (w : BitVec 32) : Decoded :=
  decC w true <| need (zeroAt w 12 6) .badBase <|
  match w.getLsbD 1 with
  | false => .ok (.select (fD w) (w.extractLsb' 18 2) (fS w) (fX w))
  | true => .ok (.selectT (fD w) (w.extractLsb' 18 2) (fS w) (fX w))

/-- Major 0x70: the system operations (R150). -/
def decSys (w : BitVec 32) : Decoded :=
  need (zeroAt w 6 4) .badZeroField <|
  match (w.extractLsb' 0 4).toNat with
  | 0 => need (zeroAt w 4 2 && zeroAt w 15 5) .badZeroField <| need (decide ((fB w).toNat < 12)) .badWordNumber
      (.ok (.rds (fD w) (fB w)))
  | 1 => need (zeroAt w 4 2 && zeroAt w 20 5) .badZeroField <| need (decide ((fB w).toNat < 12)) .badWordNumber
      (.ok (.wrs (fA w) (fB w)))
  | 2 => need (zeroAt w 4 2 && zeroAt w 10 10) .badZeroField (.ok (.time (fD w)))
  | 3 => need (zeroAt w 4 2 && zeroAt w 10 10) .badZeroField (.ok (.rng (fD w)))
  | 4 => need (zeroAt w 4 2 && zeroAt w 20 5 && zeroAt w 10 5) .badZeroField (.ok (.rngskip (fA w)))
  | 5 => need (zeroAt w 10 15) .badZeroField (.ok (.fence (w.extractLsb' 4 2)))
  | 6 => need (zeroAt w 4 2 && zeroAt w 10 15) .badZeroField (.ok .chkpt)
  | _ => .error .badFunction

/-- mwrs: the rows of fqhd, ptent and hfq, and the row of the other words (R132, R151). -/
def decMwrs (w : BitVec 32) : Decoded :=
  match (fB w).toNat with
  | 1 => .ok (.mwrsFqhd (fA w))
  | 6 => .ok (.mwrsPtent (fA w))
  | 7 => .ok (.mwrsHfq (fA w))
  | _ => .ok (.mwrs (fA w) (fB w))

/-- Major 0x78: the monitor operations (R151). -/
def decMon (w : BitVec 32) : Decoded :=
  need (zeroAt w 3 7) .badFunction <|
  match (fFn3 w).toNat with
  | 0 => need (zeroAt w 20 5 && zeroAt w 10 5) .badZeroField (.ok (.eret (fA w)))
  | 1 => need (zeroAt w 10 5) .badZeroField (.ok (.slotrd (fD w) (fA w)))
  | 2 => .ok (.slotwr (fD w) (fA w) (fB w))
  | 3 => need (zeroAt w 20 5) .badZeroField (.ok (.slotctlThaw (fA w) (fB w)))
  | 4 => need (zeroAt w 20 5 && zeroAt w 10 5) .badZeroField (.ok (.tlbinv (fA w)))
  | 5 => need (zeroAt w 10 15) .badZeroField (.ok .idle)
  | 6 => need (zeroAt w 15 5) .badZeroField <| need (decide ((fB w).toNat < 9)) .badWordNumber
      (.ok (.mrds (fD w) (fB w)))
  | _ => need (zeroAt w 20 5) .badZeroField <| need (decide ((fB w).toNat < 9)) .badWordNumber (decMwrs w)

/-- The decoder: every 32-bit word is an instruction or is rejected by name (R137, R152). -/
def decode (w : BitVec 32) : Decoded :=
  match (fMajor w).toNat with
  | 0x00 => decInt w
  | 0x01 => need (zeroAt w 0 5) .badZeroField (.ok (.csel (fD w) (fA w) (fB w) (fC w)))
  | 0x02 => .ok (.addi (fD w) (fA w) (fImm15 w))
  | 0x03 => .ok (.andi (fD w) (fA w) (fImm15 w))
  | 0x04 => .ok (.ori (fD w) (fA w) (fImm15 w))
  | 0x05 => .ok (.xori (fD w) (fA w) (fImm15 w))
  | 0x06 => need (zeroAt w 6 9) .badZeroField (.ok (.shli (fD w) (fA w) (w.extractLsb' 0 6)))
  | 0x07 => need (zeroAt w 6 9) .badZeroField (.ok (.shri (fD w) (fA w) (w.extractLsb' 0 6)))
  | 0x08 => need (zeroAt w 6 9) .badZeroField (.ok (.srai (fD w) (fA w) (w.extractLsb' 0 6)))
  | 0x09 => .ok (.slti (fD w) (fA w) (fImm15 w))
  | 0x0A => .ok (.sltni (fD w) (fA w) (fImm15 w))
  | 0x0B => .ok (.lui (fD w) (fImm20 w))
  | 0x0C => .ok (.addpc (fD w) (fImm20 w))
  | 0x0D =>
    match (fFn7 w).toNat with
    | 0 => need (zeroAt w 15 5) .badZeroField (.ok (.ldk (fD w) (fK8 w)))
    | 1 => .ok (.addk (fD w) (fA w) (fK8 w))
    | _ => .error .badFunction
  | 0x0E => decCap w
  | 0x0F => .ok (.cinci (fD w) (fA w) (fImm15 w))
  | 0x10 => .ok (.beq (fD w) (fA w) (fImm15 w))
  | 0x11 => .ok (.bne (fD w) (fA w) (fImm15 w))
  | 0x12 => .ok (.blt (fD w) (fA w) (fImm15 w))
  | 0x13 => .ok (.bge (fD w) (fA w) (fImm15 w))
  | 0x14 => .ok (.bltn (fD w) (fA w) (fImm15 w))
  | 0x15 => .ok (.bgen (fD w) (fA w) (fImm15 w))
  | 0x16 => need (zeroAt w 15 5) .badZeroField (.ok (.bz (fD w) (fImm15 w)))
  | 0x17 => need (zeroAt w 15 5) .badZeroField (.ok (.bnz (fD w) (fImm15 w)))
  | 0x18 => .ok (.jal (fD w) (fImm20 w))
  | 0x19 => .ok (.jalr (fD w) (fA w) (fImm15 w))
  | 0x20 => .ok (.ldb (fD w) (fA w) (fImm15 w))
  | 0x21 => .ok (.ldbn (fD w) (fA w) (fImm15 w))
  | 0x22 => .ok (.ldh (fD w) (fA w) (fImm15 w))
  | 0x23 => .ok (.ldhn (fD w) (fA w) (fImm15 w))
  | 0x24 => .ok (.ldw (fD w) (fA w) (fImm15 w))
  | 0x25 => .ok (.ldwn (fD w) (fA w) (fImm15 w))
  | 0x26 => .ok (.ldd (fD w) (fA w) (fImm15 w))
  | 0x27 => .ok (.ldc (fD w) (fA w) (fImm15 w))
  | 0x28 => .ok (.stb (fD w) (fA w) (fImm15 w))
  | 0x29 => .ok (.sth (fD w) (fA w) (fImm15 w))
  | 0x2A => .ok (.stw (fD w) (fA w) (fImm15 w))
  | 0x2B => .ok (.std (fD w) (fA w) (fImm15 w))
  | 0x2C => .ok (.stc (fD w) (fA w) (fImm15 w))
  | 0x2D => decAtomic w
  | 0x30 => decFloat w
  | 0x31 => decFcmp w
  | 0x32 => need (zeroAt w 15 5 && zeroAt w 1 6) .badZeroField (.ok (.fmvk (fD w) (fK8 w) (w.getLsbD 0)))
  | 0x33 => decV33 w
  | 0x34 => decV34 w
  | 0x35 => decV35 w
  | 0x36 => decV36 w
  | 0x37 => decV37 w
  | 0x38 => decV38 w
  | 0x39 => decV39 w
  | 0x3A => decMask w
  | 0x3B => need (zeroAt w 20 5 && zeroAt w 3 12) .badZeroField (.ok (.rep (fA w) (w.extractLsb' 0 3)))
  | 0x3C => decPump w
  | 0x50 => decMclaim w
  | 0x51 => need (zeroAt w 0 22) .badZeroField (.ok (.mfree (fAcc w)))
  | 0x52 => need (zeroAt w 0 22) .badZeroField (.ok (.mzero (fAcc w)))
  | 0x53 => need (zeroAt w 0 10 && zeroAt w 20 2) .badZeroField (.ok (.mld (fAcc w) (fA w) (fB w)))
  | 0x54 => decMst w
  | 0x55 => need (zeroAt w 20 2) .badZeroField <| need (decide ((fLow5 w).toNat ≤ 0x10)) .badType
      (.ok (.mma (fAcc w) (fA w) (fB w) (fC w) (fLow5 w)))
  | 0x56 => need (zeroAt w 0 22) .badZeroField (.ok (.mwait (fAcc w)))
  | 0x57 => need (zeroAt w 0 15 && zeroAt w 20 2) .badZeroField (.ok (.mstat (fAcc w) (fA w)))
  | 0x58 => need (zeroAt w 0 5) .badZeroField (.ok (.cpy (fD w) (fA w) (fB w) (fC w)))
  | 0x59 => need (zeroAt w 0 5) .badZeroField (.ok (.cpyt (fD w) (fA w) (fB w) (fC w)))
  | 0x5A => need (zeroAt w 4 1) .badZeroField <| need (decide (w.extractLsb' 0 2 ≠ 3#2)) .badFunction
      (.ok (.cpyr (fD w) (fA w) (fB w) (fC w) (w.extractLsb' 2 2) (w.extractLsb' 0 2)))
  | 0x5B => need (zeroAt w 0 4) .badZeroField <|
    match w.getLsbD 4 with
    | false => .ok (.cpyxOut (fD w) (fA w) (fB w) (fC w))
    | true => .ok (.cpyxIn (fD w) (fA w) (fB w) (fC w))
  | 0x5C => decCwait w
  | 0x60 => decC w true <| need (zeroAt w 2 5) .badZeroField <|
    match w.getLsbD 1 with
    | false => .ok (.send (fD w) (fEnd w) (fS w))
    | true => .ok (.sendT (fD w) (fEnd w) (fS w))
  | 0x61 => decC w true <| need (zeroAt w 2 5) .badZeroField <|
    match w.getLsbD 1 with
    | false => .ok (.recv (fD w) (fEnd w) (fS w))
    | true => .ok (.recvT (fD w) (fEnd w) (fS w))
  | 0x62 => decC w false <| need (zeroAt w 2 5) .badZeroField (.ok (.sendv (fD w) (fEnd w) (fS w)))
  | 0x63 => decC w false <| need (zeroAt w 2 5) .badZeroField (.ok (.recvv (fD w) (fEnd w) (fS w)))
  | 0x64 => decC w false (.ok (.sendb (fD w) (fEnd w) (fS w) (fX w)))
  | 0x65 => decC w false (.ok (.recvb (fD w) (fEnd w) (fS w) (fX w)))
  | 0x66 => decSelect w
  | 0x67 => decC w false <| need (zeroAt w 2 10) .badZeroField (.ok (.probe (fD w) (fEnd w)))
  | 0x68 => decC w false <| need (zeroAt w 2 10) .badZeroField (.ok (.chst (fD w) (fEnd w)))
  | 0x69 => decC w false <| need (zeroAt w 2 10) .badZeroField (.ok (.chgive (fD w) (fEnd w)))
  | 0x6A => decC w false <| need (zeroAt w 2 10) .badZeroField (.ok (.latarr (fD w) (fEnd w)))
  | 0x6B => decC w false <| need (zeroAt w 2 10 && zeroAt w 20 5) .badZeroField (.ok (.latdrop (fEnd w)))
  | 0x6C => decC w false <| need (zeroAt w 2 10) .badZeroField (.ok (.latwait (fD w) (fEnd w)))
  | 0x6D => need (zeroAt w 0 5) .badZeroField (.ok (.spawn (fD w) (fA w) (fB w) (fC w)))
  | 0x6E => need (zeroAt w 10 15) .badZeroField <|
    match (fFn10 w).toNat with
    | 0 => .ok .exit
    | 1 => .ok .yield
    | _ => .error .badFunction
  | 0x70 => decSys w
  | 0x71 =>
    match (fFn10 w).toNat with
    | 0 => .ok (.trap (fTrap w))
    | 1 => .ok (.brk (fTrap w))
    | _ => .error .badFunction
  | 0x78 => decMon w
  | _ => .error .badMajor

/-- The instruction an instruction of the opcode table's numbering decodes to: one 32-bit word, bit 0 the least
significant (R133). -/
def decodeTableWord (nbits w : Nat) : Option Instr :=
  match nbits ≤ 32, decode (BitVec.ofNat 32 w) with
  | _, .ok i => some i
  | _, .error _ => none

/-- Words whose pipe is A: majors 0x00 to 0x2F and 0x60 to 0x7E; 0x30 to 0x5F are B (R133). A word of major 0x7F, which raises
ILLEGAL, issues on A too: the model's choice, for R133 names no pipe for it (log entry 109). -/
def onAPipe (w : BitVec 32) : Bool :=
  decide ((fMajor w).toNat < 0x30) || decide (0x60 ≤ (fMajor w).toNat)

/-! The encoder. -/

/-- The R format, and the S format. -/
def encR (major : BitVec 7) (d a b : Reg) (fn : BitVec 10) : BitVec 32 := major ++ d ++ a ++ b ++ fn
/-- The I format; the B format with its registers in the first two fields. -/
def encI (major : BitVec 7) (d a : Reg) (i : BitVec 15) : BitVec 32 := major ++ d ++ a ++ i
/-- The U and J formats. -/
def encU (major : BitVec 7) (d : Reg) (i : BitVec 20) : BitVec 32 := major ++ d ++ i
/-- The K format. -/
def encK (major : BitVec 7) (d a : Reg) (k : BitVec 8) (fn : BitVec 7) : BitVec 32 := major ++ d ++ a ++ k ++ fn
/-- The V format. -/
def encV (major : BitVec 7) (d a b : Reg) (m : MReg) (t : BitVec 4) (fn : BitVec 3) : BitVec 32 :=
  major ++ d ++ a ++ b ++ m ++ t ++ fn
/-- The M format. -/
def encM (major : BitVec 7) (c : BitVec 3) (a b x : Reg) (t : BitVec 5) : BitVec 32 :=
  major ++ c ++ 0#2 ++ a ++ b ++ x ++ t
/-- The C format. -/
def encC (major : BitVec 7) (d : Reg) (e : BitVec 8) (s x : Reg) (t : Bool) : BitVec 32 :=
  major ++ d ++ e ++ s ++ x ++ BitVec.ofBool t ++ 0#1

/-- A mask register in a 5-bit field. -/
def mField (m : MReg) : Reg := 0#2 ++ m
/-- fn10 of the scalar floats: c, the width bit and the operation (R141). -/
def fnF (c : Reg) (w : Bool) (op : BitVec 4) : BitVec 10 := c ++ BitVec.ofBool w ++ op
/-- The shape code of mclaim (R144). -/
def AccShape.code : AccShape → BitVec 5
  | .f32 => 0 | .s32 => 1 | .f64 => 2

/-- The word of an instruction; an event has none, and an illegal word is no instruction (R134 to R151). -/
def encode : Instr → Option (BitVec 32)
  | .add d a b => some (encR 0x00 d a b 0x1)
  | .sub d a b => some (encR 0x00 d a b 0x2)
  | .and d a b => some (encR 0x00 d a b 0x3)
  | .or d a b => some (encR 0x00 d a b 0x4)
  | .xor d a b => some (encR 0x00 d a b 0x5)
  | .andn d a b => some (encR 0x00 d a b 0x6)
  | .orn d a b => some (encR 0x00 d a b 0x7)
  | .shl d a b => some (encR 0x00 d a b 0x8)
  | .shr d a b => some (encR 0x00 d a b 0x9)
  | .sra d a b => some (encR 0x00 d a b 0xa)
  | .rol d a b => some (encR 0x00 d a b 0xb)
  | .ror d a b => some (encR 0x00 d a b 0xc)
  | .addw d a b => some (encR 0x00 d a b 0x10)
  | .subw d a b => some (encR 0x00 d a b 0x11)
  | .mulw d a b => some (encR 0x00 d a b 0x12)
  | .shlw d a b => some (encR 0x00 d a b 0x13)
  | .shrw d a b => some (encR 0x00 d a b 0x14)
  | .sraw d a b => some (encR 0x00 d a b 0x15)
  | .mul d a b => some (encR 0x00 d a b 0x20)
  | .mulh d a b => some (encR 0x00 d a b 0x21)
  | .mulhn d a b => some (encR 0x00 d a b 0x22)
  | .div d a b => some (encR 0x00 d a b 0x23)
  | .divn d a b => some (encR 0x00 d a b 0x24)
  | .rem d a b => some (encR 0x00 d a b 0x25)
  | .remn d a b => some (encR 0x00 d a b 0x26)
  | .min d a b => some (encR 0x00 d a b 0x30)
  | .max d a b => some (encR 0x00 d a b 0x31)
  | .minn d a b => some (encR 0x00 d a b 0x32)
  | .maxn d a b => some (encR 0x00 d a b 0x33)
  | .slt d a b => some (encR 0x00 d a b 0x34)
  | .sltn d a b => some (encR 0x00 d a b 0x35)
  | .seq d a b => some (encR 0x00 d a b 0x36)
  | .clz d a => some (encR 0x00 d a 0 0x40)
  | .ctz d a => some (encR 0x00 d a 0 0x41)
  | .popc d a => some (encR 0x00 d a 0 0x42)
  | .brev d a => some (encR 0x00 d a 0 0x43)
  | .bswap d a => some (encR 0x00 d a 0 0x44)
  | .sext d a w => some (encR 0x00 d a 0 (4#4 ++ w))
  | .zext d a w => some (encR 0x00 d a 0 (5#4 ++ w))
  | .csel d a b c => some (encR 0x01 d a b (c ++ 0#5))
  | .addi d a i => some (encI 0x2 d a i)
  | .andi d a i => some (encI 0x3 d a i)
  | .ori d a i => some (encI 0x4 d a i)
  | .xori d a i => some (encI 0x5 d a i)
  | .shli d a n => some (encI 0x6 d a (0#9 ++ n))
  | .shri d a n => some (encI 0x7 d a (0#9 ++ n))
  | .srai d a n => some (encI 0x8 d a (0#9 ++ n))
  | .slti d a i => some (encI 0x9 d a i)
  | .sltni d a i => some (encI 0xa d a i)
  | .lui d i => some (encU 0x0B d i)
  | .addpc d i => some (encU 0x0C d i)
  | .ldk d k => some (encK 0x0D d 0 k 0)
  | .addk d a k => some (encK 0x0D d a k 1)
  | .cbnd d a b => some (encR 0x0E d a b 1)
  | .cinc d a b => some (encR 0x0E d a b 2)
  | .cperm d a b => some (encR 0x0E d a b 3)
  | .cbase d a => some (encR 0x0E d a 0 4)
  | .climit d a => some (encR 0x0E d a 0 5)
  | .cgetp d a => some (encR 0x0E d a 0 6)
  | .ctag d a => some (encR 0x0E d a 0 7)
  | .cuntag d a => some (encR 0x0E d a 0 8)
  | .csub d a b => some (encR 0x0E d a b 9)
  | .cinci d a i => some (encI 0x0F d a i)
  | .beq a b p => some (encI 0x10 a b p)
  | .bne a b p => some (encI 0x11 a b p)
  | .blt a b p => some (encI 0x12 a b p)
  | .bge a b p => some (encI 0x13 a b p)
  | .bltn a b p => some (encI 0x14 a b p)
  | .bgen a b p => some (encI 0x15 a b p)
  | .bz a p => some (encI 0x16 a 0 p)
  | .bnz a p => some (encI 0x17 a 0 p)
  | .jal d p => some (encU 0x18 d p)
  | .jalr d a i => some (encI 0x19 d a i)
  | .ldb d a i => some (encI 0x20 d a i)
  | .ldbn d a i => some (encI 0x21 d a i)
  | .ldh d a i => some (encI 0x22 d a i)
  | .ldhn d a i => some (encI 0x23 d a i)
  | .ldw d a i => some (encI 0x24 d a i)
  | .ldwn d a i => some (encI 0x25 d a i)
  | .ldd d a i => some (encI 0x26 d a i)
  | .ldc d a i => some (encI 0x27 d a i)
  | .stb d a i => some (encI 0x28 d a i)
  | .sth d a i => some (encI 0x29 d a i)
  | .stw d a i => some (encI 0x2a d a i)
  | .std d a i => some (encI 0x2b d a i)
  | .stc d a i => some (encI 0x2c d a i)
  | .amoadd d a b z => some (encR 0x2D d a b (fnF 0 z 0))
  | .amoand d a b z => some (encR 0x2D d a b (fnF 0 z 1))
  | .amoor d a b z => some (encR 0x2D d a b (fnF 0 z 2))
  | .amoxor d a b z => some (encR 0x2D d a b (fnF 0 z 3))
  | .amomin d a b z => some (encR 0x2D d a b (fnF 0 z 4))
  | .amomax d a b z => some (encR 0x2D d a b (fnF 0 z 5))
  | .amominn d a b z => some (encR 0x2D d a b (fnF 0 z 6))
  | .amomaxn d a b z => some (encR 0x2D d a b (fnF 0 z 7))
  | .amoswp d a b z => some (encR 0x2D d a b (fnF 0 z 8))
  | .cas d a b z => some (encR 0x2D d a b (fnF 0 z 9))
  | .fadd d a b w => some (encR 0x30 d a b (fnF 0 w 0))
  | .fsub d a b w => some (encR 0x30 d a b (fnF 0 w 1))
  | .fmul d a b w => some (encR 0x30 d a b (fnF 0 w 2))
  | .fdiv d a b w => some (encR 0x30 d a b (fnF 0 w 3))
  | .fsqrt d a w => some (encR 0x30 d a 0 (fnF 0 w 4))
  | .fma d a b c w => some (encR 0x30 d a b (fnF c w 5))
  | .fms d a b c w => some (encR 0x30 d a b (fnF c w 6))
  | .fnma d a b c w => some (encR 0x30 d a b (fnF c w 7))
  | .fnms d a b c w => some (encR 0x30 d a b (fnF c w 8))
  | .fmin d a b w => some (encR 0x30 d a b (fnF 0 w 9))
  | .fmax d a b w => some (encR 0x30 d a b (fnF 0 w 10))
  | .fsgnJ d a b w => some (encR 0x30 d a b (fnF 0 w 11))
  | .fsgnN d a b w => some (encR 0x30 d a b (fnF 0 w 12))
  | .fsgnX d a b w => some (encR 0x30 d a b (fnF 0 w 13))
  | .fclass d a w => some (encR 0x30 d a 0 (fnF 0 w 14))
  | .fcmpEq d a b w => some (encR 0x31 d a b (0#7 ++ BitVec.ofBool w ++ 0#2))
  | .fcmpLt d a b w => some (encR 0x31 d a b (0#7 ++ BitVec.ofBool w ++ 1#2))
  | .fcmpLe d a b w => some (encR 0x31 d a b (0#7 ++ BitVec.ofBool w ++ 2#2))
  | .fcvt d a t s r => some (encR 0x31 d a (0#1 ++ s.code) (0#3 ++ t.code ++ BitVec.ofBool r ++ 3#2))
  | .fmvk d k w => some (encK 0x32 d 0 k (0#6 ++ BitVec.ofBool w))
  | .vadd d a b m t => some (encV 0x33 d a b m t.code 0)
  | .vsub d a b m t => some (encV 0x33 d a b m t.code 1)
  | .vmul d a b m t => some (encV 0x33 d a b m t.code 2)
  | .vfma d a b m t => some (encV 0x33 d a b m t.code 3)
  | .vfms d a b m t => some (encV 0x33 d a b m t.code 4)
  | .vmin d a b m t => some (encV 0x33 d a b m t.code 5)
  | .vmax d a b m t => some (encV 0x33 d a b m t.code 6)
  | .vdot d a b m t => some (encV 0x33 d a b m t.code 7)
  | .vand d a b m t => some (encV 0x34 d a b m t.code 0)
  | .vor d a b m t => some (encV 0x34 d a b m t.code 1)
  | .vxor d a b m t => some (encV 0x34 d a b m t.code 2)
  | .vandn d a b m t => some (encV 0x34 d a b m t.code 3)
  | .vshl d a b m t => some (encV 0x34 d a b m t.code 4)
  | .vshr d a b m t => some (encV 0x34 d a b m t.code 5)
  | .vsra d a b m t => some (encV 0x34 d a b m t.code 6)
  | .vsel d a b m t => some (encV 0x34 d a b m t.code 7)
  | .vabs d a m t => some (encV 0x35 d a 0 m t.code 0)
  | .vneg d a m t => some (encV 0x35 d a 0 m t.code 1)
  | .vexp2 d a m t => some (encV 0x35 d a 0 m t.code 2)
  | .vlog2 d a m t => some (encV 0x35 d a 0 m t.code 3)
  | .vrcp d a m t => some (encV 0x35 d a 0 m t.code 4)
  | .vrsq d a m t => some (encV 0x35 d a 0 m t.code 5)
  | .vsqrt d a m t => some (encV 0x35 d a 0 m t.code 6)
  | .vrng d m t => some (encV 0x35 d 0 0 m t.code 7)
  | .vcmpEq d a b m t => some (encV 0x36 (mField d) a b m t.code 0)
  | .vcmpNe d a b m t => some (encV 0x36 (mField d) a b m t.code 1)
  | .vcmpLt d a b m t => some (encV 0x36 (mField d) a b m t.code 2)
  | .vcmpLe d a b m t => some (encV 0x36 (mField d) a b m t.code 3)
  | .vredSum d a m t => some (encV 0x37 d a 0 m t.code 0)
  | .vredMin d a m t => some (encV 0x37 d a 0 m t.code 1)
  | .vredMax d a m t => some (encV 0x37 d a 0 m t.code 2)
  | .vld d a o m t => some (encV 0x38 d a o m t.code 0)
  | .vst d a o m t => some (encV 0x38 d a o m t.code 1)
  | .vlds d a b m t => some (encV 0x38 d a b m t.code 2)
  | .vsts d a b m t => some (encV 0x38 d a b m t.code 3)
  | .vgat d a b m t => some (encV 0x38 d a b m t.code 4)
  | .vsct d a b m t => some (encV 0x38 d a b m t.code 5)
  | .vbcast d a m t => some (encV 0x39 d a 0 m t.code 0)
  | .vext d a b t => some (encV 0x39 d a b 0 t.code 1)
  | .vins d a b m t => some (encV 0x39 d a b m t.code 2)
  | .vperm d a b m t => some (encV 0x39 d a b m t.code 3)
  | .vcvt d a m t s r => some (encV 0x39 d a (BitVec.ofBool r ++ s.code) m t.code 4)
  | .vmxq d a t => some (encV 0x39 d a 0 0 t.code 5)
  | .vmxd d b t => some (encV 0x39 d 0 b 0 t.code 6)
  | .mand d a b => some (encR 0x3A (mField d) (mField a) (mField b) 0)
  | .mor d a b => some (encR 0x3A (mField d) (mField a) (mField b) 1)
  | .mxor d a b => some (encR 0x3A (mField d) (mField a) (mField b) 2)
  | .mnot d a => some (encR 0x3A (mField d) (mField a) 0 3)
  | .mpop d a => some (encR 0x3A d (mField a) 0 4)
  | .mfst d a => some (encR 0x3A d (mField a) 0 5)
  | .mset d a => some (encR 0x3A (mField d) a 0 6)
  | .mget d a => some (encR 0x3A d (mField a) 0 7)
  | .rep a k => some (encR 0x3B 0 a 0 (0#7 ++ k))
  | .pbindIn a b p => some (encR 0x3C 0 a b (0#8 ++ p))
  | .pbindOut a b p => some (encR 0x3C 0 a b (1#8 ++ p))
  | .pdrain p => some (encR 0x3C 0 0 0 (2#8 ++ p))
  | .pstat d p => some (encR 0x3C d 0 0 (4#8 ++ p))
  | .pfree p => some (encR 0x3C 0 0 0 (6#8 ++ p))
  | .mclaim c h => some (encM 0x50 c 0 0 0 h.code)
  | .mfree c => some (encM 0x51 c 0 0 0 0)
  | .mzero c => some (encM 0x52 c 0 0 0 0)
  | .mld c a b => some (encM 0x53 c a b 0 0)
  | .mst c a b x t => some (encM 0x54 c a b x t)
  | .mma c a b x t => some (encM 0x55 c a b x t)
  | .mwait c => some (encM 0x56 c 0 0 0 0)
  | .mstat c d => some (encM 0x57 c d 0 0 0)
  | .cpy d a b c => some (encR 0x58 d a b (c ++ 0#5))
  | .cpyt d a b c => some (encR 0x59 d a b (c ++ 0#5))
  | .cpyr d a b c t o => some (encR 0x5A d a b (c ++ 0#1 ++ t ++ o))
  | .cpyxOut d a b c => some (encR 0x5B d a b (c ++ 0#5))
  | .cpyxIn d a b c => some (encR 0x5B d a b (c ++ 16#5))
  | .cwait a => some (encR 0x5C 0 a 0 0)
  | .cpoll d a => some (encR 0x5C d a 0 1)
  | .cabort a => some (encR 0x5C 0 a 0 2)
  | .send d e s => some (encC 0x60 d e s 0 false)
  | .sendT d e s => some (encC 0x60 d e s 0 true)
  | .recv d e s => some (encC 0x61 d e s 0 false)
  | .recvT d e s => some (encC 0x61 d e s 0 true)
  | .sendv d e s => some (encC 0x62 d e s 0 false)
  | .recvv d e s => some (encC 0x63 d e s 0 false)
  | .sendb d e s x => some (encC 0x64 d e s x false)
  | .recvb d e s x => some (encC 0x65 d e s x false)
  | .select d b s x => some (encC 0x66 d (b ++ 0#6) s x false)
  | .selectT d b s x => some (encC 0x66 d (b ++ 0#6) s x true)
  | .probe d e => some (encC 0x67 d e 0 0 false)
  | .chst d e => some (encC 0x68 d e 0 0 false)
  | .chgive d e => some (encC 0x69 d e 0 0 false)
  | .latarr d e => some (encC 0x6a d e 0 0 false)
  | .latdrop e => some (encC 0x6B 0 e 0 0 false)
  | .latwait d e => some (encC 0x6c d e 0 0 false)
  | .spawn d a b s => some (encR 0x6D d a b (s ++ 0#5))
  | .exit => some (encR 0x6E 0 0 0 0)
  | .yield => some (encR 0x6E 0 0 0 1)
  | .rds d w => some (encR 0x70 d 0 w 0)
  | .wrs a w => some (encR 0x70 0 a w 1)
  | .time d => some (encR 0x70 d 0 0 2)
  | .rng d => some (encR 0x70 d 0 0 3)
  | .rngskip a => some (encR 0x70 0 a 0 4)
  | .fence f => some (encR 0x70 0 0 0 (0#4 ++ f ++ 5#4))
  | .chkpt => some (encR 0x70 0 0 0 6)
  | .trap i => some ((0x71#7 ++ i ++ 0#10))
  | .brk i => some ((0x71#7 ++ i ++ 1#10))
  | .eret a => some (encR 0x78 0 a 0 0)
  | .slotrd d a => some (encR 0x78 d a 0 1)
  | .slotwr d a b => some (encR 0x78 d a b 2)
  | .slotctlThaw a b => some (encR 0x78 0 a b 3)
  | .slotctlFreeze a b => some (encR 0x78 0 a b 3)
  | .slotctlKill a b => some (encR 0x78 0 a b 3)
  | .tlbinv a => some (encR 0x78 0 a 0 4)
  | .idle => some (encR 0x78 0 0 0 5)
  | .mrds d w => some (encR 0x78 d 0 w 6)
  | .mwrs a w => some (encR 0x78 0 a w 7)
  | .mwrsFqhd a => some (encR 0x78 0 a 1 7)
  | .mwrsPtent a => some (encR 0x78 0 a 6 7)
  | .mwrsHfq a => some (encR 0x78 0 a 7 7)
  | .illegalEncoding _ | .networkStart | .poolEntryTakesSlot | .ageingThreshold
  | .offerArrives | .claimArrives | .confirmationRequestArrives | .grantArrives
  | .refusalArrives | .withdrawalArrives | .goArrives | .firstFlitArrives
  | .lastByteWritten | .acknowledgementArrives | .closeNoticeArrives | .deliveryFails
  | .deadlinePasses | .virtualChannelFreed | .stubForward | .messageReturnedToSource
  | .latchArrivalMsg | .latchDropMsg | .latchLeaveMsg | .phaseMulticastApplied
  | .deadboltProbeStart | .deadboltProbeMessage | .deadboltReport | .translationWalkComplete
  | .translationEntryApplied | .tlbinvComplete | .pageWaiterRelease | .matrixCommandComplete
  | .copyElement | .cpyxElementAck | .cpyxReadDataArrives | .cpyxWatchdogExpiry
  | .cpyxAbortTimeout | .cpyxPauseAckTimeout | .inputPumpPrefetch | .outputPumpWrite
  | .deferredFaultRecordWrite | .monitorWake | .monitorTimeout | .hfqAppendComplete
  | .fansResume | .fansNext | .fansKill | .freezeRequestAccepted
  | .tileQuiescent | .freezeRelease | .supplyOutOfRange | .supplyPowerdown
  | .regionOvercurrent | .powerEmergencyClear | .thermalEmergency | .thermalEmergencyClear
  | .coolantFlowLow | .coolantFlowPowerdown | .ckintExpiry | .ckminExpiry
  | .checkpointCommit | .stagingMergeComplete | .inputLogThreshold | .rollback
  | .replayEnd | .correctedError | .rotationStepStart | .rotationWarmComplete
  | .routerMapUpdate | .routerMapAck | .screeningComplete | .vtileLost
  | .reportWrite | .perstDeassert | .conventionalReset | .bdlgoWrite
  | .bundleCheckDone | .rampNeighbourHold | .rampWaitLimit | .regionRampComplete
  | .linkTrainingDone | .bistDone | .linkDegrade | .hostLinkDown
  | .flrPf | .flrVf | .tsetWrite | .ptmRequest
  | .regionReset | .regionResetDone | .monitorReload | .monitorReloadDone
  | .doorbellWrite | .load | .start | .stop
  | .switch | .evict | .waitFor | .completionRecordWrite
  | .translationWindowWrite | .partitionForm | .partitionDissolve | .partitionAdmit
  | .partitionChangeDone | .scrubComplete | .receiptSigned | .evictionRequest
  | .evictionAbort | .evictionFrozen | .evictionSendDone | .fabricDrained
  | .bladeUnlatch | .supplyAbsent60s | .nvCounterSave | .retirementLogCommit
  | .opticalDataCodeword | .opticalAckCodeword | .opticalIdleCodeword | .opticalTrainingCodeword
  | .opticalSignalLoss | .laneLockTimeout | .registerWrite | .supplyBackInRange
  | .coolantFlowRestored | .rampNeighbourRelease | .tileFailure | .stackLost
  | .wellPageLost | .checkpointPageStreamed | .linkLayerRetry | .evictionTargetWrite
  | .ieee1588SyncMessage => none
end Sys2Proof
end

