-- ==== Sys2Proof/Machine/Sparse.lean ====
section
/-! DEFINITION. Tables with a default: the one form in which State holds memories, register files, end tables and
every other indexed structure. A table is a list of (index, value) pairs with rising indexes and no entry equal to the
default, so that equal tables are equal lists. -/

namespace Sys2Proof.Machine

/-- A table from indexes to values; an index not listed holds the default of the type. -/
abbrev Sparse (α : Type) := List (Nat × α)

/-- The value a table holds at an index. -/
def Sparse.get {α : Type} [Inhabited α] : Sparse α → Nat → α
  | [], _ => default
  | (k, v) :: r, i => if k = i then v else Sparse.get r i

/-- The table with one index no longer listed. -/
def Sparse.drop {α : Type} (m : Sparse α) (i : Nat) : Sparse α :=
  m.filter (fun p => p.1 != i)

/-- The table with one index listed at its place in the rising order. -/
def Sparse.put {α : Type} : Sparse α → Nat → α → Sparse α
  | [], i, v => [(i, v)]
  | (k, w) :: r, i, v =>
    if i < k then (i, v) :: (k, w) :: r
    else if i = k then (i, v) :: r
    else (k, w) :: Sparse.put r i v

/-- The table with one value replaced; the default is held by listing nothing. -/
def Sparse.set {α : Type} [Inhabited α] [DecidableEq α] (m : Sparse α) (i : Nat) (v : α) : Sparse α :=
  if v = default then Sparse.drop m i else Sparse.put m i v

/-- The table with one value changed by a function. -/
def Sparse.upd {α : Type} [Inhabited α] [DecidableEq α] (m : Sparse α) (i : Nat) (f : α → α) : Sparse α :=
  Sparse.set m i (f (Sparse.get m i))

/-- Every listed index lies above a bound and the indexes rise. -/
def Sparse.rising {α : Type} : Nat → Sparse α → Bool
  | _, [] => true
  | lo, (k, _) :: r => decide (lo ≤ k) && Sparse.rising (k + 1) r

/-- The canonical form: rising indexes, and no listed default. -/
def Sparse.wf {α : Type} [Inhabited α] [DecidableEq α] (m : Sparse α) : Bool :=
  Sparse.rising 0 m && m.all (fun p => decide (p.2 ≠ default))

/-- A byte memory: a list of host cells. An unlisted address reads as zero (log entry 2). -/
abbrev Memory := Sparse Byte

/-- The canonical form of a memory: addresses rise and no listed byte is zero, which is what an unlisted address
reads as. -/
def Memory.wf (m : Memory) : Bool := Sparse.wf m

end Sys2Proof.Machine
end

