-- ==== Sys2Proof/Machine/State.lean ====
section
/-! DEFINITION. The state of the panel as plain data, the outcomes that are not a next state, and the state after
power-on. A field's docstring names the rule that gives it; "model" marks what is the model's own. -/

namespace Sys2Proof.Machine

/-- No instruction and no event of the panel stops the machine (R8): nobody raises a fault, so there is no reason to
name. Safe: a machine that never stops proves no false claim about stopping. -/
inductive Fault where
  deriving DecidableEq, Repr

/-- Why an instruction is refused. -/
inductive Refusal where
  /-- An instruction whose arm of `exec` has no meaning yet. Raised by such an arm only. Safe. -/
  | notModelled (mnemonic : String)
  deriving DecidableEq, Repr

/-! A process. -/

/-- A g register: 128 bits and a tag (R63). -/
structure GReg where
  tag : Bool := false
  val : BitVec 128 := 0
  deriving DecidableEq, Repr, Inhabited

/-- The states of a slot (R22). -/
inductive SlotState where
  | empty | ready | blocked | parked | frozen | exited
  deriving DecidableEq, Repr, Inhabited

/-- The kinds of wait (R94). -/
inductive WaitKind where
  | none | channel | select | latwait | mwait | cwait | fence
  deriving DecidableEq, Repr, Inhabited

/-- Which transfer a blocked channel instruction is (R228). -/
inductive XferOp where
  | send | recv | sendv | recvv | sendb | recvb
  deriving DecidableEq, Repr, Inhabited

/-- A pump of a process (R94, R199): its binding, position, prefetched elements and appended unwritten elements, each
with its element number. -/
structure Pump where
  cap : GReg := {}
  desc : Word := 0
  pos : BitVec 32 := 0
  bound : Bool := false
  out : Bool := false
  fetched : Sparse (Option Vec) := []
  pend : List (Nat × Vec) := []
  /-- model: 8-byte units of its elements read ahead of the rest, and written ahead of it (R75) -/
  early : Sparse (List Byte) := []
  wrote : List Nat := []
  stopped : Bool := false
  deriving DecidableEq, Repr, Inhabited

/-- The wait record of a blocked process (R94), and what the blocked instruction read at issue. -/
structure Wait where
  word : BitVec 32 := 0
  kind : WaitKind := .none
  timed : Bool := false
  deadline : Word := 0
  endMask : Word := 0
  guardMask : Word := 0
  target : Word := 0
  /-- model: the transfer, its end, its data and status registers -/
  op : XferOp := .send
  endIdx : Nat := 0
  dReg : Reg := 0
  sReg : Reg := 0
  /-- model: the value a send or sendv read at issue -/
  value : Vec := 0
  /-- model: the pump a sendv pops or a recvv appends to on OK -/
  pump : Option Nat := none
  /-- model: the address and length of a block transfer -/
  addr : Nat := 0
  len : Nat := 0
  /-- model: a select's first end, the guard whose claim or request awaits its answer, and the claims it defers -/
  base : Nat := 0
  asking : Option Nat := none
  deferred : List Msg := []
  /-- model: a guard whose handshake was dropped while another guard's claim awaits its answer (R233) -/
  dropped : Option Nat := none
  /-- model: the gc register of the rep whose iteration is blocked -/
  rep : Option Reg := none
  deriving DecidableEq, Repr, Inhabited

/-- A fault record before it has a number (R85). -/
structure FaultRec where
  code : BitVec 8 := 0
  slot : BitVec 3 := 0
  src : BitVec 4 := 0
  objk : BitVec 2 := 0
  obj : BitVec 8 := 0
  pc : BitVec 32 := 0
  addr : BitVec 32 := 0
  time : Word := 0
  aux : Word := 0
  deriving DecidableEq, Repr, Inhabited

/-- A deadbolt probe (R58, R59): the processes found and to visit, with the generation recorded for each, and whether
the second wave is under way. -/
structure Probe where
  found : List (Nat × Nat × BitVec 32) := []
  visit : List (Nat × Nat) := []
  second : Bool := false
  deriving DecidableEq, Repr, Inhabited

/-- The context of a process slot (R18, R94), or of the monitor (R92). -/
structure Proc where
  g : Sparse GReg := []
  v : Sparse Vec := []
  m : Sparse Word := []
  pc : Pc := 0
  st : SlotState := .empty
  prior : SlotState := .empty
  efp : Bool := false
  /-- frozen by slotctl and not by a whole-tile freeze (R96, R248) -/
  bySlotctl : Bool := false
  /-- model: a slotctl freeze that takes effect at the release of the whole-tile freeze (R100) -/
  preempt : Bool := false
  lastEnd : BitVec 8 := 255
  claimed : BitVec 8 := 0
  nextCid : BitVec 16 := 0
  ageing : BitVec 16 := 0
  /-- the counter reached 256: effective priority 4 for the next issue (R31) -/
  aged : Bool := false
  btime : BitVec 32 := 0
  gen : BitVec 32 := 0
  pwait : Option (BitVec 14) := none
  pnum : Word := 0
  fst : BitVec 5 := 0
  frm : BitVec 2 := 0
  amax : Word := 0
  rngk : Word := 0
  rngn : Word := 0
  prio : BitVec 2 := 0
  dlT : Bool := false
  dlthr : BitVec 32 := 0x00100000
  fltc : Word := 0
  cpid : BitVec 16 := 0
  pumps : Sparse Pump := []
  memb : BitVec 256 := 0
  wait : Wait := {}
  /-- engine faults that park the process at its next boundary (R84) -/
  pendFault : List FaultRec := []
  probe : Option Probe := none
  /-- the context of a FROZEN slot was frozen while the process waited to go READY under R72 or R246 -/
  resume : Bool := false
  deriving DecidableEq, Repr, Inhabited

/-! Ends and latches. -/

/-- The states of an end (R36). -/
inductive EndState where
  | unbound | idle | offered | claimed | transferring | closed | broken
  deriving DecidableEq, Repr, Inhabited

/-- An end-table entry (R36), and the model's record of the messages the end awaits. -/
structure End where
  st : EndState := .unbound
  owner : BitVec 3 := 0
  pvt : BitVec 16 := 0
  pend : BitVec 8 := 0
  ov : Bool := false
  input : Bool := false
  kind : BitVec 2 := 0
  port : BitVec 6 := 0
  xp : Bool := false
  hold : Bool := false
  oo : Bool := false
  po : Bool := false
  psel : Bool := false
  plen : BitVec 11 := 0
  wgo : Bool := false
  seq : BitVec 16 := 0
  /-- the sequence number of the next message of this side (R43) -/
  sentSeq : BitVec 16 := 0
  /-- model: a claim or confirmation request of this end awaits its answer; its wait bit; it is a request (R49) -/
  claiming : Bool := false
  claimWait : Bool := false
  tent : Bool := false
  /-- model: a grant came while the tenant was absent: the transfer streams when it is resident again (R102) -/
  due : Bool := false
  /-- model: the length of the peer's block in the present match -/
  peerLen : Nat := 0
  /-- model: the data landing at an input end, where a block lands and its bytes; with no owner left, where data that
  still streams is to land and how much of it -/
  inbuf : Option Msg := none
  land : Nat := 0
  moved : Nat := 0
  /-- model: 8-byte units of the landing block already written (R41) -/
  wrote : List Nat := []
  deriving DecidableEq, Repr, Inhabited

/-- The home state of a latch (R52). -/
structure LatchHome where
  e : BitVec 16 := 0
  c : BitVec 16 := 0
  p : BitVec 16 := 0
  d : BitVec 16 := 0
  /-- the vtiles whose members have counted in the present phase: the tiles that hosted a member in it (R54) -/
  counted : List Nat := []
  deriving DecidableEq, Repr, Inhabited

/-- A tile's record of a latch (R52, R93). -/
structure LatchRec where
  lp : BitVec 16 := 0
  arr : BitVec 8 := 0
  /-- bit 24 as the loader built it or slotwr wrote it, until a member of the tile leaves; else it is read off the memberships
  (R93, R263) -/
  hosted : Option Bool := none
  /-- the home vtile is lost (R340) -/
  lost : Bool := false
  deriving DecidableEq, Repr, Inhabited

/-! Engines. -/

/-- The status of an accumulator (R93, R204). In flight is read off the matrix queue, unless slotwr wrote it. -/
structure AccStatus where
  valid : Bool := false
  dirty : Bool := false
  shape : AccShape := .f32
  owner : BitVec 3 := 0
  flags : BitVec 5 := 0
  /-- in flight as slotwr wrote it, until a command of the accumulator is queued or ends (R93) -/
  flight : Option Bool := none
  deriving DecidableEq, Repr, Inhabited

/-- What a queued matrix command does (R203). -/
inductive MatOp where
  | zero
  | claimZero
  | load (base pitch : Nat)
  | store (base pitch : Nat) (ty : BitVec 5) (scale : BitVec 32)
  | mma (aBase bBase : Nat) (desc : Word) (ty : BitVec 5)
  deriving DecidableEq, Repr, Inhabited

/-- An entry of the matrix queue (R203). -/
structure MatCmd where
  acc : BitVec 3 := 0
  slot : BitVec 3 := 0
  shape : AccShape := .f32
  op : MatOp := .zero
  /-- model: 8-byte units of the tile store that it has read, and written, ahead of its completion (R75) -/
  early : Sparse (List Byte) := []
  wrote : List Nat := []
  deriving DecidableEq, Repr, Inhabited

/-- The kinds of a copy-queue entry (R215). -/
inductive CopyKind where
  | none | cpy | cpyt | cpyr | xout | xin
  deriving DecidableEq, Repr, Inhabited

/-- One dimension of a tensor copy (R217). -/
structure Dim where
  count : Nat := 0
  sstr : Int := 0
  dstr : Int := 0
  deriving DecidableEq, Repr, Inhabited

/-- An element of a cpyx sent and not acknowledged: its number, the time of its sending and, outbound, its bytes
(R222). -/
structure Sent where
  elem : Nat := 0
  when_ : Word := 0
  bytes : List Byte := []
  deriving DecidableEq, Repr, Inhabited

/-- A copy-queue entry (R215), and what the engine read of its descriptor. -/
structure Copy where
  kind : CopyKind := .none
  st : BitVec 2 := 0
  owner : BitVec 3 := 0
  apt : BitVec 8 := 0
  ty : BitVec 2 := 0
  op : BitVec 2 := 0
  port : BitVec 6 := 0
  id : BitVec 16 := 0
  src : BitVec 32 := 0
  dst : BitVec 32 := 0
  dcrc : BitVec 32 := 0
  lend : BitVec 32 := 0
  xoff : BitVec 39 := 0
  prog : BitVec 41 := 0
  /-- model: place in issue order -/
  order : Nat := 0
  /-- model: element size in bytes, dimensions and total of the descriptor -/
  esz : Nat := 0
  dims : List Dim := []
  total : Nat := 0
  /-- model: elements of a cpyx sent and not acknowledged, those to be sent again with the same bytes (R98), elements
  acknowledged above prog, and the time since which a pause or an abort waits -/
  sent : List Sent := []
  kept : List Sent := []
  acked : List Nat := []
  since : Word := 0
  /-- model: 8-byte units of its elements read ahead of the rest, and written ahead of it (R75) -/
  early : Sparse (List Byte) := []
  wrote : List Nat := []
  /-- model: the copy of a slot that was killed while EXITED: the slot waits for it no more (R22) -/
  loose : Bool := false
  /-- model: the copy is paused by a whole-tile freeze (R97) or by a PAGE record; on resume its descriptor is read again -/
  held : Bool := false
  reread : Bool := false
  deriving DecidableEq, Repr, Inhabited

/-- An entry of the pending-spawn pool (R24, R93). -/
structure PoolEntry where
  entry : Pc := 0
  arg : Word := 0
  prio : BitVec 2 := 0
  num : Word := 0
  deriving DecidableEq, Repr, Inhabited

/-- An outstanding PAGE record (R72): the page, the slot whose access queued it, and the waiter set. -/
structure PageRec where
  page : BitVec 14 := 0
  by_ : BitVec 3 := 0
  waiters : BitVec 8 := 0
  /-- model: the record is written when the process that raised it parks (R84) -/
  unwritten : Bool := false
  deriving DecidableEq, Repr, Inhabited

/-! Freezes, checkpoints and replay. -/

/-- The kinds of whole-tile freeze: the requests of R100, those of an EVICT, of a partition change and of a blade's
eviction (R318, R319, R322, R351), and a checkpoint capture (R329), which is not a request. -/
inductive FreezeKind where
  | emergency | rotation | switch | capture | evict | change | blade
  deriving DecidableEq, Repr, Inhabited

/-- The stage of a whole-tile freeze: steps 2 to 5 under way, or quiescent (R97). -/
inductive FreezeStage where
  | draining | quiescent
  deriving DecidableEq, Repr, Inhabited

/-- A whole-tile freeze in progress: the kinds merged into it and its stage. -/
structure Freeze where
  kind : FreezeKind := .emergency
  stage : FreezeStage := .draining
  since : Word := 0
  deriving DecidableEq, Repr, Inhabited

/-- What the monitor, or a driver's answer, does to the tile: what the log keeps of a monitor run (R332 type 8); `word` is a
monitor word written. -/
inductive MonOp where
  /-- model: the monitor took a pipe, A when true -/
  | issue (a : Bool)
  | eret (q : Nat)
  /-- model: the eret of a driver's answer, which falls between two tc -/
  | resume (q : Nat)
  | slotwr (off : Nat) (v : Word)
  | slotctl (q : Nat) (act : Nat)
  | map (page : Nat) (v : Word)
  | next (r : FaultRec)
  | kill (q : Nat)
  | word (w : Nat) (v : Word)
  /-- model: bytes that the monitor stored from an address on; `tag` sets the tag of their unit -/
  | store (a : Nat) (l : List Byte) (tag : Bool)
  /-- model: the next event of the vector access that goes ahead -/
  | peer
  deriving DecidableEq, Repr, Inhabited

/-- An entry of the input log (R332): its header fields, the object and the value of its payload, and the payload's
bytes. -/
structure LogEntry where
  tick : Word := 0
  ty : BitVec 8 := 0
  slot : BitVec 3 := 0
  obj : Nat := 0
  value : Word := 0
  bytes : List Byte := []
  /-- model: the event that a replay presents at the tick, with its operands and the message that it applies; the
  message sent of a type 9 entry; the monitor's operation of a type 8 entry -/
  event : Option (Instr × EvArgs) := none
  msg : Option Msg := none
  mon : Option MonOp := none
  /-- model: it came about before event j of the access of a context: the context and j (R74) -/
  part : Option (Nat × Nat) := none
  /-- model: the package time at which it was logged -/
  when_ : Word := 0
  deriving DecidableEq, Repr, Inhabited

/-- A vector access some of whose events come before events of the scalar access of the same tc: the events that it has left,
and what those before them read (R74; model). -/
structure Ahead where
  who : Nat := 0
  reads : List (Nat × Nat) := []
  writes : List (List (Nat × List Byte)) := []
  bytes : List (List Byte) := []
  deriving DecidableEq, Repr, Inhabited

/-- The monitor's operation that waits (R249, R92). -/
inductive MonWait where
  | none
  | tlbinv (page : Option (BitVec 14))
  | entry (page : BitVec 14) (v : Word)
  | hfq (addr : Nat) (since : Word)
  | idle
  deriving DecidableEq, Repr, Inhabited

/-- The context image of a vtile with its memories (R93): what a checkpoint, the shadow store and a spare hold. -/
structure Image where
  procs : Sparse Proc := []
  accs : Sparse AccStatus := []
  accMem : Memory := []
  ends : Sparse End := []
  homes : Sparse LatchHome := []
  recs : Sparse LatchRec := []
  pool : List PoolEntry := []
  /-- pool entries of the image above the pool's count, as the monitor wrote them (R93) -/
  poolRest : Sparse PoolEntry := []
  spawnCtr : Word := 0
  copies : Sparse Copy := []
  rrA : BitVec 3 := 7
  rrB : BitVec 3 := 7
  mats : List MatCmd := []
  store : Memory := []
  tags : Sparse Bool := []
  code : Memory := []
  consts : Sparse Word := []
  deriving DecidableEq, Repr, Inhabited

/-- A checkpoint: the image with its memories, the translation table, the pages outstanding, whether well writes waited for
room (R333), and the tile in whose slice the cistern that holds it lies (R329, R331). -/
structure Ckpt where
  im : Image := {}
  pt : Sparse Word := []
  pages : List PageRec := []
  releases : List (BitVec 3) := []
  starved : Bool := false
  time : Word := 0
  home : Nat := 0
  deriving DecidableEq, Repr, Inhabited

/-- A vtile of a tenant: its image, its translation, its faults, its monitor and its records of reliability. -/
structure VTile where
  im : Image := {}
  /-- numbers of the vtile: partition, tenant, vtile, physical tile -/
  part : Nat := 0
  tenant : Nat := 0
  num : Nat := 0
  ptile : Nat := 0
  pt : Sparse Word := []
  tlb : Sparse Word := []
  walks : List Nat := []
  /-- pages whose walk in flight a tlbinv discards (R249) -/
  discard : List Nat := []
  fqtl : BitVec 5 := 0
  fqhd : BitVec 5 := 0
  fqwait : List FaultRec := []
  recNum : BitVec 16 := 0
  wdl : Word := 50000000
  ptwst : Bool := false
  ptsel : BitVec 14 := 0
  hfqBad : Bool := false
  hfqFull : Bool := false
  pages : List PageRec := []
  releases : List (BitVec 3) := []
  /-- forwarded records awaiting the driver's answer, with their numbers, and the answers not yet acted on (R89) -/
  forwarded : List (BitVec 16 × FaultRec) := []
  answers : List (BitVec 2 × FaultRec) := []
  /-- the times at which the last records were written, at most 16, oldest first: those held are the last of them (R91) -/
  recTimes : List Word := []
  monCode : Memory := []
  monWait : MonWait := .none
  monStop : Bool := false
  reqReg : Bool := false
  freeze : Option Freeze := none
  requests : List FreezeKind := []
  emergency : Bool := false
  ckPending : Bool := false
  /-- the committed checkpoint, the one in staging, and whether the committed one is still to be merged (R329, R330) -/
  ck : Option Ckpt := none
  staged : Option Ckpt := none
  unmerged : Bool := false
  /-- tile-store pages marked copy-on-write and not yet streamed (R329) -/
  marked : List Nat := []
  /-- a checkpoint is due at once: the vtile has resumed on a new tile, or its log is near its end (R328) -/
  ckDue : Bool := false
  /-- an uncorrectable error whose rollback waits for the end of a freeze: its structure code (R334) -/
  errPending : Option (BitVec 8) := none
  /-- its tile has failed and cannot be read (R337) -/
  failed : Bool := false
  /-- well pages as they stood at the capture of the committed checkpoint, and of the staged one (R330) -/
  snaps : List (Nat × Memory) := []
  stagedSnaps : List (Nat × Memory) := []
  /-- the input log since the committed checkpoint; entries from `logMark` on are since the staged one -/
  log : List LogEntry := []
  logMark : Nat := 0
  tick : Word := 0
  logBytes : Nat := 0
  /-- the log or the pool has had no room since the last commit: well writes wait (R333) -/
  starved : Bool := false
  /-- its room was low at the end of the last tc: falling below the threshold requests a checkpoint (R333) -/
  low : Bool := false
  replay : Option (List LogEntry) := none
  /-- model: divergences of the replay not yet reported, as their report's aux (R334, R341) -/
  diverged : List Word := []
  /-- its tile's scrub is done, and the vtile waits for the others (R323) -/
  scrubbed : Bool := false
  lost : Bool := false
  /-- model: who issued on each pipe in the present tc, 8 for the monitor -/
  issuedA : Option Nat := none
  issuedB : Option Nat := none
  /-- model: the vector access of the present tc whose events have begun before its issue is taken up (R74) -/
  ahead : Option Ahead := none
  /-- model: the slots that a spawn or an eret of the present tc makes READY: candidates from the next one (R24, R246) -/
  fresh : BitVec 8 := 0
  /-- model: next place in issue order of the copy engine -/
  copyOrder : Nat := 0
  deriving DecidableEq, Repr, Inhabited

/-! Networks and queues. -/

/-- An aperture of a network with its binding (R261, R312). -/
structure Aperture where
  size : Nat := 0
  peer : Bool := false
  rd : Bool := false
  wr : Bool := false
  base : Nat := 0
  serial : Word := 0
  deriving DecidableEq, Repr, Inhabited

/-- A placement entry (R258). -/
structure Placement where
  vtile : Nat := 0
  slot : Nat := 0
  prio : BitVec 2 := 0
  entry : Pc := 0
  arg : Word := 0
  deriving DecidableEq, Repr, Inhabited

/-- A latch of a network: its home and its members as (vtile, slot mask) (R260). -/
structure LatchDecl where
  home : Nat := 0
  members : List (Nat × BitVec 8) := []
  deriving DecidableEq, Repr, Inhabited

/-- A loaded network (R15, R311). -/
structure Network where
  netid : Word := 0
  nv : Nat := 0
  receipt : Bool := false
  places : List Placement := []
  latches : Sparse LatchDecl := []
  apertures : Sparse Aperture := []
  loaded : Bool := false
  started : Bool := false
  running : List Nat := []
  resident : Bool := false
  stopping : Bool := false
  queue : Nat := 0
  deriving DecidableEq, Repr, Inhabited

/-- A command of a launch queue that has begun and not completed (R309): its place in the queue, the network it acts
on, and for a WAIT-FOR the place of the command it waits for. -/
structure Command where
  idx : Nat := 0
  op : Nat := 0
  tenant : Nat := 0
  tag : BitVec 32 := 0
  netid : Word := 0
  accepted : Bool := false
  target : Nat := 0
  deriving DecidableEq, Repr, Inhabited

/-- A completion record (R311). -/
structure Completion where
  /-- model: the place of its command in the queue (R310) -/
  idx : Nat := 0
  tag : BitVec 32 := 0
  op : Nat := 0
  status : Nat := 0
  reason : Nat := 0
  data : Word := 0
  deriving DecidableEq, Repr, Inhabited

/-- The queue block of a partition number (R308). -/
structure QBlock where
  lqbase : Word := 0
  cqbase : Word := 0
  fqbase0 : Word := 0
  fqbase1 : Word := 0
  en : Bool := false
  fqsize0 : BitVec 8 := 0
  fqsize1 : BitVec 8 := 0
  qsize : BitVec 16 := 0
  tail : BitVec 32 := 0
  lqhd : BitVec 32 := 0
  cqtl : BitVec 32 := 0
  cqhd : BitVec 32 := 0
  fqtl0 : BitVec 32 := 0
  fqtl1 : BitVec 32 := 0
  fqhd0 : BitVec 32 := 0
  fqhd1 : BitVec 32 := 0
  full0 : Bool := false
  full1 : Bool := false
  /-- command entries fetched and not begun, oldest first -/
  fetched : List (List Byte) := []
  begun : List Command := []
  done : List Completion := []
  /-- the tag of every command begun, in ring order, and whether it has completed -/
  tags : List (BitVec 32 × Bool) := []
  /-- netids loaded through this queue, with their tenants, oldest first -/
  loads : List (Word × Nat) := []
  deriving DecidableEq, Repr, Inhabited

/-- A partition (R315). -/
structure Partition where
  regions : BitVec 48 := 0
  t0 : BitVec 4 := 0
  t1 : BitVec 4 := 0
  v0 : Bool := false
  v1 : Bool := false
  dual : Bool := false
  act : Bool := false
  state : BitVec 8 := 0
  /-- physical tile of each vtile, in vtile order (R14) -/
  tiles : List Nat := []
  /-- the latest receipt naming the tenant of each slot as incoming: its number (R326) -/
  receipt0 : Word := 0
  receipt1 : Word := 0
  deriving DecidableEq, Repr, Inhabited

/-- A scrub receipt: its message and its signature (R324, R325). -/
structure Receipt where
  rseq : Word := 0
  message : List Byte := []
  signature : List Byte := []
  signed : Bool := false
  deriving DecidableEq, Repr, Inhabited

/-- A scrub under way, with what its receipt will say (R323, R324). -/
structure Scrub where
  cause : Nat := 0
  part : Nat := 0
  outgoing : Option (BitVec 4) := none
  incoming : Option (BitVec 4) := none
  regions : BitVec 48 := 0
  /-- physical tiles whose completion bit is set, and when the last was -/
  bits : List Nat := []
  last : Word := 0
  /-- the tenants of the partitions that a change took regions from, each a possible outgoing one (R324) -/
  outs : List (BitVec 4) := []
  deriving DecidableEq, Repr, Inhabited

/-- A write of a cpyx.out that nobody waits for and that may still reach its ordering point: its path, the place of its
copy in issue order, its place outside and its bytes (R98, R223). -/
structure Stray where
  path : Nat := 0
  order : Nat := 0
  place : Nat := 0
  bytes : List Byte := []
  deriving DecidableEq, Repr, Inhabited

/-! The panel. -/

/-- The roles of a physical tile (R356). -/
inductive Role where
  | exposed | spare | screening | retired | lost
  deriving DecidableEq, Repr, Inhabited

/-- The counters of a physical tile (R356), its role, its router and its forwarding stub (R43, R336). -/
structure PTile where
  role : Role := .exposed
  pwr : List Word := []
  margin : BitVec 32 := 0
  ce : Sparse (BitVec 32) := []
  /-- the times of the corrected tile-store errors since bring-up: cewin is the number of those within retpol's window -/
  ceTimes : List Word := []
  hbmce : BitVec 32 := 0
  uce : BitVec 32 := 0
  scrp : BitVec 32 := 0
  scrf : BitVec 32 := 0
  rot : BitVec 32 := 0
  drop : Word := 0
  retry : Word := 0
  /-- the tile to which the router forwards, while routers have still to acknowledge (R336) -/
  stub : Option Nat := none
  /-- it has failed and cannot be read (R337) -/
  failed : Bool := false
  /-- the monitor image of the bundle is loaded on it (R298, R307) -/
  mon : Bool := false
  deriving DecidableEq, Repr, Inhabited

/-- The stages of a region's power (R298, R344). -/
inductive Power where
  | off | ramping | held | noWait | on | lost
  deriving DecidableEq, Repr, Inhabited

/-- A region: its power, whether its tiles are divided (R13), its emergencies and stacks. Its record (R299) follows from
these and the roles of its tiles. -/
structure Region where
  power : Power := .off
  /-- nanoseconds for which its ramp has waited, and since when it waits (R344) -/
  waited : Nat := 0
  heldSince : Word := 0
  /-- the tc in which its power was last switched on: from it on its tiles count powered tc (R356) -/
  pwrFrom : Nat := 0
  divided : Bool := false
  emPower : Bool := false
  emSupply : Bool := false
  emThermal : Bool := false
  emFlow : Bool := false
  stack0Lost : Bool := false
  stack1Lost : Bool := false
  deriving DecidableEq, Repr, Inhabited

/-- A link entry (R300). -/
structure Link where
  kind : BitVec 4 := 0
  cond : BitVec 4 := 0
  near : BitVec 16 := 0
  far : BitVec 16 := 0
  rate : BitVec 32 := 0
  lat : BitVec 32 := 0
  peer : Word := 0
  deriving DecidableEq, Repr, Inhabited

/-- A lane of an optical port (R349). -/
structure Lane where
  locked : Bool := false
  failed : Bool := false
  serial : Word := 0
  far : Nat := 0
  /-- the number of the next codeword to be sent, and of the next to be delivered -/
  txSeq : BitVec 16 := 0
  rxSeq : BitVec 16 := 0
  /-- codewords out of order, the flits in order not yet delivered, and the codewords that could not be read, once for
  each request to send them again -/
  held : List (BitVec 16 × List Flit) := []
  stream : List Flit := []
  bad : List (BitVec 16) := []
  toAck : List AckRecord := []
  deriving DecidableEq, Repr, Inhabited

/-- An optical port: its working lanes, and the places among them of the next codeword sent and delivered (R349). -/
structure OptPort where
  lanes : List Nat := []
  tx : Nat := 0
  rx : Nat := 0
  deriving DecidableEq, Repr, Inhabited

/-- A codeword on its way to another panel, and the requests to send it again (R349). -/
structure FarMsg where
  port : Nat := 0
  lane : Nat := 0
  seq : BitVec 16 := 0
  tries : Nat := 0
  flits : List Flit := []
  deriving DecidableEq, Repr, Inhabited

/-- The stages of a rotation step (R336). -/
inductive RotStage where
  | warm | freezing | copying | mapping | done
  deriving DecidableEq, Repr, Inhabited

/-- A rotation step or retirement move in progress (R335, R336): routers still to get the new map, those still to
acknowledge it, and the checkpoint and freeze times of the vtile moved. -/
structure Rotation where
  from_ : Nat := 0
  dest : Nat := 0
  stage : RotStage := .warm
  routers : List Nat := []
  unacked : List Nat := []
  retire : Bool := false
  t0 : Word := 0
  t1 : Word := 0
  deriving DecidableEq, Repr, Inhabited

/-- A tile in screening (R338): the vtile moved, the interval replayed, the state hash of the vtile at its thaw on its new
tile, and the snapshots of the interval. -/
structure Screen where
  ptile : Nat := 0
  vt : Nat := 0
  t0 : Word := 0
  t1 : Word := 0
  hash : List Byte := []
  pages : List (Nat × Memory) := []
  deriving DecidableEq, Repr, Inhabited

/-- A report that waits for room (R341). -/
structure Report where
  ty : BitVec 8 := 0
  tenant : BitVec 8 := 0
  vtile : BitVec 16 := 0
  part : BitVec 8 := 0
  ptile : BitVec 16 := 0
  t0 : Word := 0
  t1 : Word := 0
  count : Word := 1
  aux : Word := 0
  rseq : Word := 0
  deriving DecidableEq, Repr, Inhabited

/-- A retirement that waits for its entry, or an entry of the log (R359). -/
structure Retirement where
  time : Word := 0
  ptile : BitVec 16 := 0
  reason : BitVec 8 := 0
  detail : BitVec 8 := 0
  span : BitVec 32 := 0
  t0 : Word := 0
  t1 : Word := 0
  part : BitVec 8 := 0xFF
  tenant : BitVec 8 := 0xFF
  vtile : BitVec 16 := 0xFFFF
  spare : BitVec 16 := 0xFFFF
  /-- model: its vtile has not yet moved, so the entry is not complete (R294) -/
  waits : Bool := false
  deriving DecidableEq, Repr, Inhabited

/-- The bring-up, time and reset registers (R297, R305, R307) and what bring-up has done. -/
structure BringUp where
  bdladdr : Word := 0
  bdllen : BitVec 32 := 0
  /-- model: what bdladdr and bdllen held at the go (R298) -/
  goaddr : Word := 0
  golen : BitVec 32 := 0
  phase : BitVec 4 := 1
  err : BitVec 8 := 0
  bundle : List Byte := []
  monitor : List Byte := []
  tsrc : BitVec 2 := 0
  ptmint : Word := 10000000
  tset : Bool := false
  ppm : Int := 0
  /-- the time of the last PTM request -/
  ptmTime : Word := 0
  rgregion : BitVec 6 := 0
  rgphase : BitVec 4 := 0
  rgerr : BitVec 8 := 0
  mrregion : BitVec 6 := 0
  mrphase : BitVec 4 := 0
  mrerr : BitVec 8 := 0
  /-- model: the regions of the reset and of the reload in progress -/
  rgact : BitVec 6 := 0
  mract : BitVec 6 := 0
  /-- the virtual functions are enabled; the physical function is in D3hot (R302) -/
  vfs : Bool := false
  d3 : Bool := false
  hostLink : Bool := false
  reset : Bool := true
  deriving DecidableEq, Repr, Inhabited

/-- A write of the translation window that waits: the vtile and page, and the 8 B or the half of them that it writes
(R304, R313). -/
structure WindowWrite where
  vt : Nat := 0
  page : Nat := 0
  four : Bool := false
  hi : Nat := 0
  value : Word := 0
  deriving DecidableEq, Repr, Inhabited

/-- The partition-change registers and the receipt registers (R317, R325), and the translation window (R313). -/
structure Tenancy where
  pcregions : BitVec 48 := 0
  pcpart : BitVec 8 := 0
  pckeep : Bool := false
  pctenant : BitVec 4 := 0
  pcdual : Bool := false
  pcop : BitVec 2 := 0
  pcflb : Word := 0
  pcfll : Word := 0
  pcphase : BitVec 8 := 0
  pcerr : BitVec 8 := 0
  affected : List Nat := []
  /-- model: the slot that an admission in progress takes (R319) -/
  pcslot : Nat := 0
  rhead : Word := 0
  rsel : Word := 0
  made : Word := 0
  twtenant : BitVec 4 := 0
  twvtile : BitVec 16 := 0
  twpart : BitVec 8 := 0
  twpage : BitVec 16 := 0
  /-- the vtile and page whose tlbinv a write awaits (R313) -/
  twbusy : Option (Nat × Nat) := none
  twrefused : Bool := false
  twwaiting : List WindowWrite := []
  deriving DecidableEq, Repr, Inhabited

/-- The reliability registers (R327), the report ring and the hinges (R335, R341). -/
structure Reliability where
  ckint : Word := 10000000
  ckmin : BitVec 32 := 50000
  rotint : Word := 2000000000
  win : BitVec 32 := 3600
  ce : BitVec 8 := 3
  scr : Bool := true
  mgnlim : BitVec 32 := 30000
  rrbase : Word := 0
  rren : Bool := false
  rrsize : BitVec 4 := 0
  rrtl : BitVec 32 := 0
  rrhd : BitVec 32 := 0
  waiting : List Report := []
  made : Word := 0
  /-- rotation steps in progress by chiplet 2r + c, the next path index to rotate, and when the last step started -/
  rotations : Sparse (Option Rotation) := []
  next : Sparse Nat := []
  stepTimes : Sparse Word := []
  /-- chiplets whose retirement move was abandoned: it is tried again at the next rotint (R336) -/
  retry : Sparse Bool := []
  rotStop : Bool := false
  /-- tiles in screening, with the vtile moved, and the start and end of the interval replayed -/
  screens : List Screen := []
  /-- tiles to be retired whose vtile has not yet moved, in the order of the decisions -/
  retiring : List Retirement := []
  deriving DecidableEq, Repr, Inhabited

/-- The eviction registers and the interlock (R350 to R353). -/
structure Eviction where
  ports : BitVec 48 := 0
  serial : Word := 0
  est : Word := 0
  err : BitVec 8 := 0
  late : Bool := false
  step : BitVec 4 := 0
  safe : Bool := false
  latchOpen : Bool := false
  supplyAbsent : Bool := false
  /-- when the eviction was requested, and the rate of the live named ports in MB/s -/
  since : Word := 0
  rate : Nat := 0
  /-- the units of step 3 left, as vtile and page, and those sent, each with its port and its bytes -/
  todo : List (Nat × Nat) := []
  sent : List (Nat × List Byte) := []
  deriving DecidableEq, Repr, Inhabited

/-- Power and coolant conditions (R343, R346) and the health records (R355 to R361). -/
structure Health where
  supplyOut : Bool := false
  supplySince : Word := 0
  /-- nanoseconds of the supply's absence before package time last restarted (R353) -/
  absentNs : Nat := 0
  flowLow : Bool := false
  flowSince : Word := 0
  /-- the state last published: at power-on every region is off (R358) -/
  hstate : BitVec 8 := 3
  hsel : Word := 0
  lsel : Word := 0
  eeprom0 : List Byte := []
  eeprom1 : List Byte := []
  eeseq : BitVec 32 := 0
  inband : Nat := 0
  nv : Sparse PTile := []
  log : Sparse (Option Retirement) := []
  logCount : Nat := 0
  pending : List Retirement := []
  /-- the bytes programmed of the oldest of these, and the slot that was left without its commit byte (R360, R361) -/
  programmed : Nat := 0
  torn : List Byte := []
  saveTime : Word := 0
  deriving DecidableEq, Repr, Inhabited

/-- Which context's instruction is executing: a vtile by its key, and a slot, 8 for the monitor (model). -/
structure Ctx where
  vt : Nat := 0
  who : Nat := 0
  deriving DecidableEq, Repr, Inhabited

/-- Whose turn it is: the place of a tile among those that run, and the pipe A, the pipe B or the end of its tc
(model). -/
structure Turn where
  idx : Nat := 0
  phase : Nat := 0
  deriving DecidableEq, Repr, Inhabited

/-- The panel. -/
structure State where
  /-- model: the context of the instruction being executed -/
  cur : Ctx := {}
  /-- model: whose turn comes next -/
  turn : Turn := {}
  /-- model: turns of the fabric taken, to which the free values are applied -/
  count : Nat := 0
  /-- model: events from outside not yet taken with their operands, oldest first, and the operands of the event being
  applied -/
  inputs : List (Instr × EvArgs) := []
  arg : EvArgs := {}
  /-- model: the event being applied is presented from an input log (R334) -/
  presenting : Bool := false
  /-- model: external writes that may still land though nobody waits for them (R98, R223) -/
  strays : List Stray := []
  /-- the package time counter (R4, R305) -/
  time : Word := 0
  /-- vtiles of every tenant, active or in the shadow store, by key -/
  vts : Sparse VTile := []
  /-- messages in flight, oldest first (R43), and messages to other panels not yet acknowledged -/
  msgs : List Msg := []
  farOut : List FarMsg := []
  /-- the acknowledgement codewords that have left, oldest first: the port of each and its records (R349) -/
  acksOut : List (Nat × List AckRecord) := []
  hbm : Memory := []
  /-- the tenant that last mapped a frame, plus one (R316) -/
  frameTen : Sparse Nat := []
  hostMem : Memory := []
  peerMem : Memory := []
  nets : Sparse Network := []
  netCount : Nat := 0
  queues : Sparse QBlock := []
  parts : Sparse Partition := []
  scrubs : List Scrub := []
  receipts : List Receipt := []
  regions : Sparse Region := []
  ptiles : Sparse PTile := []
  links : Sparse Link := []
  linkGen : BitVec 32 := 0
  lanes : Sparse Lane := []
  optPorts : Sparse OptPort := []
  up : BringUp := {}
  ten : Tenancy := {}
  rel : Reliability := {}
  ev : Eviction := {}
  health : Health := {}
  /-- MSI-X vectors raised, as (function, vector), oldest first (R302) -/
  msix : List (Nat × Nat) := []
  deriving DecidableEq, Repr, Inhabited

/-- The panel right after power-on: bring-up at phase 1, every region off, no partition, no vtile, nothing listed in
any memory (R297, R298). Values the manual does not state are those of log entries 2, 4 and 11. -/
def State.reset : State := {}

end Sys2Proof.Machine
end

