-- ==== Sys2Proof/Machine/Ops.lean ====
section
/-! DEFINITION. The named operations over tiles, registers and memory, the check of an access, taking a fault, and the
return from one. -/

namespace Sys2Proof.Machine

/-! Tiles and contexts. -/

/-- The number of the monitor among the contexts of a tile: its ninth (R89). -/
def monitorCtx : Nat := 8

/-- The key of a vtile of a tenant in a partition. -/
def vtKey (part tenant num : Nat) : Nat := (part * 16 + tenant) * 65536 + num

/-- The vtile with a key. -/
def State.tile (s : State) (k : Nat) : VTile := Sparse.get s.vts k

/-- The state with one vtile replaced. -/
def State.setTile (s : State) (k : Nat) (t : VTile) : State := { s with vts := Sparse.set s.vts k t }

/-- The state with one vtile changed. -/
def State.updTile (s : State) (k : Nat) (f : VTile → VTile) : State := s.setTile k (f (s.tile k))

/-- The context of a slot, or of the monitor. -/
def VTile.proc (t : VTile) (q : Nat) : Proc := Sparse.get t.im.procs q

/-- The vtile with its image changed. -/
def VTile.updIm (t : VTile) (f : Image → Image) : VTile := { t with im := f t.im }

/-- The vtile with one context replaced. -/
def VTile.setProc (t : VTile) (q : Nat) (p : Proc) : VTile :=
  { t with im := { t.im with procs := Sparse.set t.im.procs q p } }

/-- The vtile with one context changed. -/
def VTile.updProc (t : VTile) (q : Nat) (f : Proc → Proc) : VTile := t.setProc q (f (t.proc q))

/-- The context of a slot of a vtile. -/
def State.procAt (s : State) (k q : Nat) : Proc := (s.tile k).proc q

/-- The state with one context of a vtile changed. -/
def State.updProcAt (s : State) (k q : Nat) (f : Proc → Proc) : State := s.updTile k (fun t => t.updProc q f)

/-- The vtile whose instruction is executing. -/
def State.here (s : State) : VTile := s.tile s.cur.vt

/-- The state with the executing instruction's vtile changed. -/
def State.updHere (s : State) (f : VTile → VTile) : State := s.updTile s.cur.vt f

/-- The context whose instruction is executing. -/
def State.proc (s : State) : Proc := s.procAt s.cur.vt s.cur.who

/-- The state with the executing context changed. -/
def State.updProc (s : State) (f : Proc → Proc) : State := s.updProcAt s.cur.vt s.cur.who f

/-- The monitor is the executing context. -/
def State.inMonitor (s : State) : Bool := decide (s.cur.who = monitorCtx)

/-- The slot number of the executing context. -/
def State.slot (s : State) : BitVec 3 := BitVec.ofNat 3 s.cur.who

/-! Registers (R130). -/

/-- A g register as read: g0 is untagged zero. -/
def Proc.rg (p : Proc) (r : Reg) : GReg := if r = 0 then {} else Sparse.get p.g r.toNat

/-- A g register as written: a write to g0 is discarded. -/
def Proc.wg (p : Proc) (r : Reg) (v : GReg) : Proc := if r = 0 then p else { p with g := Sparse.set p.g r.toNat v }

/-- A data result: 64 bits, the rest zero, untagged. -/
def dataReg (v : Word) : GReg := { tag := false, val := v.setWidth 128 }

/-- The data an integer operand reads: bits [63:0] whatever the tag (R153). -/
def GReg.x (g : GReg) : Word := g.val.setWidth 64

/-- A mask register as read: m0 is all ones. -/
def Proc.rm (p : Proc) (m : MReg) : Word := if m = 0 then BitVec.allOnes 64 else Sparse.get p.m m.toNat

/-- A mask register as written: a write to m0 is discarded. -/
def Proc.wm (p : Proc) (m : MReg) (v : Word) : Proc := if m = 0 then p else { p with m := Sparse.set p.m m.toNat v }

/-- A g register of the executing context. -/
def State.g (s : State) (r : Reg) : GReg := s.proc.rg r

/-- The data of a g register of the executing context. -/
def State.x (s : State) (r : Reg) : Word := (s.g r).x

/-- Write a whole g register of the executing context. -/
def State.wg (s : State) (r : Reg) (v : GReg) : State := s.updProc (fun p => p.wg r v)

/-- A data write to a g register of the executing context. -/
def State.wx (s : State) (r : Reg) (v : Word) : State := s.wg r (dataReg v)

/-- A mask register of the executing context. -/
def State.m (s : State) (r : MReg) : Word := s.proc.rm r

/-- Write a mask register of the executing context. -/
def State.wm (s : State) (r : MReg) (v : Word) : State := s.updProc (fun p => p.wm r v)

/-- The executing context goes on to an address. -/
def State.goto (s : State) (pc : Pc) : State := s.updProc (fun p => { p with pc := pc })

/-- The executing context goes on to the next instruction (R133). -/
def State.next (s : State) : State := s.updProc (fun p => { p with pc := p.pc + 4 })

/-- A data write to a g register, and on to the next instruction. -/
def State.put (s : State) (r : Reg) (v : Word) : State := (s.wx r v).next

/-! Bytes. -/

/-- The bytes of a number, lowest first (R3). -/
def toBytes : Nat → Nat → List Byte
  | 0, _ => []
  | n + 1, v => BitVec.ofNat 8 v :: toBytes n (v / 256)

/-- The number of bytes, lowest first (R3). -/
def ofBytes : List Byte → Nat
  | [] => 0
  | b :: r => b.toNat + 256 * ofBytes r

/-- `n` bytes of a memory from an address. -/
def Memory.read (m : Memory) (a : Nat) : Nat → List Byte
  | 0 => []
  | n + 1 => Sparse.get m a :: Memory.read m (a + 1) n

/-- A memory with bytes written from an address. -/
def Memory.write (m : Memory) (a : Nat) : List Byte → Memory
  | [] => m
  | b :: r => Memory.write (Sparse.set m a b) (a + 1) r

/-- A memory with every byte of a range at zero. -/
def Memory.clear (m : Memory) (a n : Nat) : Memory := m.filter (fun c => decide (c.1 < a) || decide (a + n ≤ c.1))

/-! Places of the panel (R10). -/

/-- The region record index of a physical tile. -/
def regionOf (ptile : Nat) : Nat := (ptile / 128 / 8) * 8 + (ptile % 128) / 16

/-- The mesh coordinate u of a physical tile in its region (R267). -/
def meshU (ptile : Nat) : Nat := ptile % 16

/-- The mesh coordinate w of a physical tile in its region. -/
def meshW (ptile : Nat) : Nat := (ptile / 128) % 8

/-- The chiplet of a physical tile: 0 for A, 1 for B. -/
def chipletOf (ptile : Nat) : Nat := meshU ptile / 8

/-- The partner of a tile: at the same coordinates in the other chiplet of its region (R331). -/
def partnerOf (ptile : Nat) : Nat := ptile - meshU ptile + (meshU ptile + 8) % 16

/-- The chiplet-path index of each tile of a chiplet, by cy × 8 + cx (R12). -/
def chipletPath : List Nat :=
  [0, 3, 4, 5, 58, 59, 60, 63] ++ [1, 2, 7, 6, 57, 56, 61, 62] ++ [14, 13, 8, 9, 54, 55, 50, 49]
    ++ [15, 12, 11, 10, 53, 52, 51, 48] ++ [16, 17, 30, 31, 32, 33, 46, 47] ++ [19, 18, 29, 28, 35, 34, 45, 44]
    ++ [20, 23, 24, 27, 36, 39, 40, 43] ++ [21, 22, 25, 26, 37, 38, 41, 42]

/-- The place of a tile on its chiplet's path. -/
def pathIndex (p : Nat) : Nat := chipletPath.getD ((p / 128 % 8) * 8 + p % 8) 0

/-- The place of a byte of HBM: region, stack, frame and offset (R68). -/
def hbmAddr (region stk frame off : Nat) : Nat := region * 2 ^ 37 + stk * 2 ^ 36 + frame * 65536 + off

/-! The tile address space (R61). -/

/-- The first address of the user tile store. -/
def storeLo : Nat := 0x00000800
/-- The first address of the monitor area. -/
def monLo : Nat := 0x001E0000
/-- The first address above the tile store. -/
def storeHi : Nat := 0x00200000
/-- The first address of the well. -/
def wellLo : Nat := 0x40000000

/-- The partition of a vtile has two tenant slots (R316). -/
def State.dual (s : State) (k : Nat) : Bool := (Sparse.get s.parts (s.tile k).part).dual

/-- The first address above the well: 960 MiB, or 480 MiB with two tenant slots. -/
def State.wellHi (s : State) (k : Nat) : Nat := if s.dual k then 0x5E000000 else 0x7C000000

/-- The well page of an address (R68). -/
def pageOf (a : Nat) : Nat := (a - wellLo) / 65536

/-! Well translation (R68 to R70). -/

/-- Bit M of an entry: MAPPED. -/
def entryM (e : Word) : Bool := e.getLsbD 0
/-- Bit Rd of an entry. -/
def entryR (e : Word) : Bool := e.getLsbD 1
/-- Bit W of an entry. -/
def entryW (e : Word) : Bool := e.getLsbD 2
/-- The stack of an entry. -/
def entryStk (e : Word) : Nat := if e.getLsbD 3 then 1 else 0
/-- The frame of an entry. -/
def entryFrame (e : Word) : Nat := (e.extractLsb' 20 20).toNat

/-- The entry an access uses: the cached one, else the table's; an access that needs a right its cached entry lacks
faults though the table has it since, until the entry leaves the cache (R70; the model's choice, log entry 13). -/
def VTile.entry (t : VTile) (page : Nat) : Word :=
  if Sparse.get t.tlb page = 0 then Sparse.get t.pt page else Sparse.get t.tlb page

/-- A page is outstanding (R72). -/
def VTile.outstanding (t : VTile) (page : Nat) : Bool := t.pages.any (fun r => r.page.toNat == page)

/-- An access with given needs is allowed on a page: the entry grants it (R69), and no PAGE record of the page is
outstanding (R72). -/
def VTile.pageAllows (t : VTile) (page : Nat) (rd wr : Bool) : Bool :=
  !t.outstanding page && entryM (t.entry page) && (!rd || entryR (t.entry page)) && (!wr || entryW (t.entry page))

/-- The HBM place of a well address. -/
def VTile.wellPlace (t : VTile) (a : Nat) : Nat :=
  hbmAddr (regionOf t.ptile) (entryStk (t.entry (pageOf a))) (entryFrame (t.entry (pageOf a))) ((a - wellLo) % 65536)

/-- The byte at an address of a vtile's address space (R73). -/
def State.readByte (s : State) (k a : Nat) : Byte :=
  if a < wellLo then Sparse.get (s.tile k).im.store a
  else Sparse.get s.hbm ((s.tile k).wellPlace a)

/-- `n` bytes from an address of a vtile's address space. -/
def State.readBytes (s : State) (k a : Nat) : Nat → List Byte
  | 0 => []
  | n + 1 => s.readByte k a :: s.readBytes k (a + 1) n

/-- The contents of the page of HBM at a place. -/
def pageBytes (hbm : Memory) (place : Nat) : Memory := hbm.filter (fun c => decide (c.1 / 65536 = place / 65536))

/-- The snapshot of a page taken before its first write since the last capture (R330). -/
def VTile.snapshot (t : VTile) (hbm : Memory) (place : Nat) : VTile :=
  if t.ck.isNone && t.staged.isNone then t
  else if t.staged.isSome then
    if t.stagedSnaps.any (fun e => e.1 == place / 65536) then t
    else { t with stagedSnaps := (place / 65536, pageBytes hbm place) :: t.stagedSnaps }
  else if t.snaps.any (fun e => e.1 == place / 65536) then t
  else { t with snaps := (place / 65536, pageBytes hbm place) :: t.snaps }

/-- A page of the tile store is in staging: a store to a marked page waits for that, so it is when the store lands (R329, log
entry 17). -/
def VTile.streamed (t : VTile) (page : Nat) : VTile := { t with marked := t.marked.filter (fun n => n != page) }

/-- A byte of the tile store written, and the tag of its unit cleared in the same event (R66). -/
def VTile.storeByte (t : VTile) (a : Nat) (b : Byte) : VTile :=
  { t.streamed (a / 4096) with
    im := { t.im with store := Sparse.set t.im.store a b, tags := Sparse.set t.im.tags (a / 16) false } }

/-- A byte written at an address of a vtile's address space. -/
def State.writeByte (s : State) (k a : Nat) (b : Byte) : State :=
  if a < wellLo then s.updTile k (fun t => t.storeByte a b)
  else { s.updTile k (fun t => t.snapshot s.hbm (t.wellPlace a)) with
    hbm := Sparse.set s.hbm ((s.tile k).wellPlace a) b }

/-- Bytes written from an address of a vtile's address space. -/
def State.writeBytes (s : State) (k a : Nat) : List Byte → State
  | [] => s
  | b :: r => (s.writeByte k a b).writeBytes k (a + 1) r

/-! The 8-byte units of engines, pumps and blocks (R74, R75). -/

/-- The bytes of unit u of a list. -/
def unitOf (l : List Byte) (u : Nat) : List Byte := (l.drop (8 * u)).take 8

/-- Bytes as an agent moves them: units read ahead, which stand under their number from `base` on, in their places, and
the rest as it stands now. -/
def mixUnits (early : Sparse (List Byte)) (base : Nat) (l : List Byte) : List Byte :=
  if early.isEmpty then l
  else (List.range ((l.length + 7) / 8)).flatMap (fun u =>
    if (Sparse.get early (base + u)).isEmpty then unitOf l u else Sparse.get early (base + u))

/-- Bytes written but for the units written ahead. -/
def State.writeUnits (s : State) (k a : Nat) (wrote : List Nat) (base : Nat) (l : List Byte) : State :=
  if wrote.isEmpty then s.writeBytes k a l
  else (List.range ((l.length + 7) / 8)).foldl (fun t u =>
    if wrote.contains (base + u) then t else t.writeBytes k (a + 8 * u) (unitOf l u)) s

/-- The units of one element leave a record of units; an element has 8. -/
def dropUnits (early : Sparse (List Byte)) (n : Nat) : Sparse (List Byte) := early.filter (fun e => decide (e.1 / 8 ≠ n))

/-! Fault codes (R81). -/

/-- ILLEGAL. -/
def codeIllegal : BitVec 8 := 0x01
/-- PRIV. -/
def codePriv : BitVec 8 := 0x02
/-- BRK. -/
def codeBrk : BitVec 8 := 0x03
/-- TRAP. -/
def codeTrap : BitVec 8 := 0x04
/-- CAP_TAG. -/
def codeCapTag : BitVec 8 := 0x10
/-- CAP_BOUNDS. -/
def codeCapBounds : BitVec 8 := 0x11
/-- CAP_PERM. -/
def codeCapPerm : BitVec 8 := 0x12
/-- ALIGN. -/
def codeAlign : BitVec 8 := 0x13
/-- REGION. -/
def codeRegion : BitVec 8 := 0x14
/-- PAGE. -/
def codePage : BitVec 8 := 0x15
/-- ENG_DESC. -/
def codeEngDesc : BitVec 8 := 0x20
/-- ACC_OWNER. -/
def codeAccOwner : BitVec 8 := 0x21
/-- REP_RANGE. -/
def codeRepRange : BitVec 8 := 0x22
/-- PUMP_EMPTY. -/
def codePumpEmpty : BitVec 8 := 0x23
/-- PUMP_FULL. -/
def codePumpFull : BitVec 8 := 0x24
/-- CHAN_END. -/
def codeChanEnd : BitVec 8 := 0x30
/-- LATCH_MEMBER. -/
def codeLatchMember : BitVec 8 := 0x31
/-- LATCH_OVER. -/
def codeLatchOver : BitVec 8 := 0x32
/-- DEADLOCK. -/
def codeDeadlock : BitVec 8 := 0x40
/-- MACHINE. -/
def codeMachine : BitVec 8 := 0x41
/-- WATCHDOG. -/
def codeWatchdog : BitVec 8 := 0x42

/-- What a failing check says of its fault: code, address, aux and the object concerned (R85). -/
structure Flt where
  code : BitVec 8 := 0
  addr : BitVec 32 := 0
  aux : Word := 0
  objk : BitVec 2 := 0
  obj : BitVec 8 := 0
  deriving DecidableEq, Repr, Inhabited

/-! The check of an access (R64). -/

/-- What an access asks for: its capability, the register and operand it came from, offset, size, perms, alignment,
page rights, whether it must lie in the tile store, and whether page rights are checked now. -/
structure Access where
  g : GReg := {}
  reg : Reg := 0
  operand : Nat := 0
  off : Int := 0
  size : Nat := 0
  perms : BitVec 5 := 0
  align : Nat := 1
  rd : Bool := false
  wr : Bool := false
  storeOnly : Bool := false
  pages : Bool := true
  deriving DecidableEq, Repr, Inhabited

/-- Perm L. -/
def permL : BitVec 5 := 1
/-- Perm S. -/
def permS : BitVec 5 := 2
/-- Perm LC. -/
def permLC : BitVec 5 := 4
/-- Perm SC. -/
def permSC : BitVec 5 := 8
/-- Perm E. -/
def permE : BitVec 5 := 16

/-- The cursor of a capability (R63). -/
def GReg.cursor (g : GReg) : BitVec 32 := g.val.extractLsb' 0 32
/-- The base of a capability. -/
def GReg.base (g : GReg) : BitVec 32 := g.val.extractLsb' 32 32
/-- The limit of a capability. -/
def GReg.limit (g : GReg) : BitVec 32 := g.val.extractLsb' 64 32
/-- The perms of a capability. -/
def GReg.perms (g : GReg) : BitVec 5 := g.val.extractLsb' 96 5

/-- A capability (R63). -/
def mkCap (cursor base limit : BitVec 32) (perms : BitVec 5) : GReg :=
  { tag := true, val := 0#27 ++ perms ++ limit ++ base ++ cursor }

/-- The address of an access: (cursor + offset) mod 2^32. -/
def Access.addr (a : Access) : Nat := ((a.g.cursor.toNat : Int) + a.off).emod (2 ^ 32) |>.toNat

/-- The aux of a capability fault: register, operand index, footprint (R81). -/
def Access.aux (a : Access) : Word :=
  BitVec.ofNat 64 (a.reg.toNat + a.operand * 32 + (min a.size 0xFFFFFFFF) * 256)

/-- A capability fault of an access, at its address. -/
def Access.flt (a : Access) (code : BitVec 8) : Flt :=
  { code := code, addr := BitVec.ofNat 32 a.addr, aux := a.aux }

/-- A fault of the bytes of an access, at the lowest that fails: its first, or one at a given place above it where the
bytes begin to fail (R85). -/
def Access.fltFrom (a : Access) (code : BitVec 8) (ok : Bool) (place : Nat) : Flt :=
  { a.flt code with addr := BitVec.ofNat 32 (if ok then place else a.addr) }

/-- CAP_BOUNDS: the first byte when it lies below the base or at or above the limit, else the first byte above it. -/
def Access.boundsFlt (a : Access) : Flt :=
  a.fltFrom codeCapBounds (decide (a.g.base.toNat ≤ a.addr) && decide (a.addr < a.g.limit.toNat)) a.g.limit.toNat

/-- A range lies inside one user row of the address map; the monitor area counts as one for the monitor alone, which
reaches no well byte (R61, R92). -/
def State.oneRow (s : State) (k : Nat) (monitor storeOnly : Bool) (a size : Nat) : Bool :=
  (decide (storeLo ≤ a) && decide (a + size ≤ monLo))
  || (monitor && decide (monLo ≤ a) && decide (a + size ≤ storeHi))
  || (!monitor && !storeOnly && decide (wellLo ≤ a) && decide (a + size ≤ s.wellHi k))

/-- Where the user row in which an address lies ends, if it lies in one (R61, R92). -/
def State.rowEnd (s : State) (k : Nat) (monitor storeOnly : Bool) (a : Nat) : Option Nat :=
  if s.oneRow k monitor storeOnly a 1 then
    some (if a < monLo then monLo else if a < storeHi then storeHi else s.wellHi k)
  else none

/-- REGION: the first byte when it lies in no user row, else the first byte above its row. -/
def State.regionFlt (s : State) (k : Nat) (monitor : Bool) (a : Access) : Flt :=
  let e := s.rowEnd k monitor a.storeOnly a.addr
  a.fltFrom codeRegion e.isSome (e.getD 0)

/-- The first page, of `n` pages from a page, that does not allow an access (R64). -/
def VTile.badPage (t : VTile) (rd wr : Bool) (page : Nat) : Nat → Option Nat
  | 0 => none
  | n + 1 => if t.pageAllows page rd wr then t.badPage rd wr (page + 1) n else some page

/-- The fault of a missing page right: the lowest byte of the footprint in the page (R69, R81). -/
def pageFlt (a page : Nat) (wr : Bool) : Flt :=
  { code := codePage, addr := BitVec.ofNat 32 (max a (wellLo + page * 65536)),
    aux := BitVec.ofNat 64 (page % 16384 + (if wr then 16384 else 0)) }

/-- The page check over a whole footprint, lowest page first. -/
def State.checkPages (s : State) (k a size : Nat) (rd wr : Bool) : Option Flt :=
  if a < wellLo || size = 0 then none
  else
    match (s.tile k).badPage rd wr (pageOf a) (pageOf (a + size - 1) + 1 - pageOf a) with
    | some p => some (pageFlt a p wr)
    | none => none

/-- The check of an access through a capability, in the order of R64: the address, or the first fault. -/
def State.checkAccess (s : State) (k : Nat) (monitor : Bool) (a : Access) : Except Flt Nat :=
  if !a.g.tag then .error (a.flt codeCapTag)
  else if a.g.perms &&& a.perms ≠ a.perms then .error (a.flt codeCapPerm)
  else if a.addr < a.g.base.toNat || a.g.limit.toNat < a.addr + a.size then .error a.boundsFlt
  else if a.addr % a.align ≠ 0 then .error (a.flt codeAlign)
  else if !s.oneRow k monitor a.storeOnly a.addr a.size then .error (s.regionFlt k monitor a)
  else
    match (if a.pages then s.checkPages k a.addr a.size a.rd a.wr else none) with
    | some f => .error f
    | none => .ok a.addr

/-- The check of an access by the executing context. -/
def State.check (s : State) (a : Access) : Except Flt Nat := s.checkAccess s.cur.vt s.inMonitor a

/-- An access to a page that is not cached asks for a walk, unless one of the page is under way (R70). -/
def VTile.walk (t : VTile) (page : Nat) : VTile :=
  if Sparse.get t.tlb page = 0 && !t.walks.contains page then { t with walks := t.walks ++ [page] } else t

/-- The walks in flight: at most 4; a fifth miss waits for a free walker (R70). -/
def VTile.walking (t : VTile) : List Nat := t.walks.take 4

/-- The walks that accesses to n pages from a page on ask for. -/
def VTile.walkPages (t : VTile) (page : Nat) : Nat → VTile
  | 0 => t
  | n + 1 => (t.walk page).walkPages (page + 1) n

/-- The walks that an access of a footprint asks for, lowest page first. -/
def State.walkFor (s : State) (k a size : Nat) : State :=
  if a < wellLo || size = 0 then s
  else s.updTile k (fun t => t.walkPages (pageOf a) (pageOf (a + size - 1) + 1 - pageOf a))

/-! The fault queue (R85 to R87). -/

/-- The 32 bytes of a fault record with its number (R85). -/
def FaultRec.bytes (r : FaultRec) (seq : BitVec 16) : List Byte :=
  toBytes 32 ((r.aux ++ r.time ++ r.addr ++ r.pc ++ seq ++ 0#14 ++ r.objk ++ r.obj ++ 0#4 ++ r.src ++ 0#5 ++ r.slot
    ++ r.code : BitVec 256).toNat)

/-- Records held: (fqtl - fqhd) mod 32. -/
def VTile.held (t : VTile) : Nat := (t.fqtl - t.fqhd).toNat

/-- Write a record at the tail of the queue. -/
def VTile.writeRec (t : VTile) (r : FaultRec) (time : Word) : VTile :=
  { t.streamed (monLo / 4096) with
    im := { t.im with store := Memory.write t.im.store (monLo + 32 * (t.fqtl.toNat % 16)) (r.bytes t.recNum) }
    fqtl := t.fqtl + 1
    recNum := t.recNum + 1
    recTimes := (t.recTimes ++ [time]).drop (t.recTimes.length - 15) }

/-- Queue a record: written at once when the queue has room, else waiting in fqwait (R87). A replay raises again only
what was recorded before it, and records nothing. -/
def VTile.queueRec (t : VTile) (r : FaultRec) (time : Word) : VTile :=
  if t.replay.isSome then t
  else if t.held < 16 && t.fqwait.isEmpty then t.writeRec r time
  else { t with fqwait := t.fqwait ++ [r] }

/-- Add 1 to fltc, saturating (R83). -/
def Proc.countFault (p : Proc) : Proc :=
  { p with fltc := if p.fltc = BitVec.allOnes 64 then p.fltc else p.fltc + 1 }

/-- The bit of a slot in a mask of slots. -/
def slotBit (q : BitVec 3) : BitVec 8 := 1#8 <<< q.toNat

/-- A slot joins the waiter set of an outstanding page (R72). -/
def VTile.joinPage (t : VTile) (page : BitVec 14) (q : BitVec 3) : VTile :=
  { t with pages := t.pages.map (fun r => if r.page = page then { r with waiters := r.waiters ||| slotBit q } else r) }

/-- Record a fault against a slot: a PAGE fault on an outstanding page writes no record and joins the waiters; any other
queues its record, and a PAGE fault makes its page outstanding (R72, R87). -/
def VTile.recordFault (t : VTile) (r : FaultRec) (time : Word) : VTile :=
  if r.code = codePage then
    if t.outstanding (r.aux.setWidth 14 : BitVec 14).toNat then t.joinPage (r.aux.setWidth 14) r.slot
    else { t.queueRec r time with
      pages := t.pages ++ [{ page := r.aux.setWidth 14, by_ := r.slot, waiters := slotBit r.slot }] }
  else t.queueRec r time

/-- A process goes PARKED for a fault: fltc counts it, and pwait names the page of a PAGE fault (R22, R72, R83). -/
def Proc.park (p : Proc) (code : BitVec 8) (aux : Word) : Proc :=
  { p.countFault with
    st := .parked
    ageing := 0
    aged := false
    pwait := if code = codePage then some (p.pwait.getD (aux.setWidth 14)) else p.pwait }

/-- TAKING A FAULT at issue by a process: precise, with the pc of the instruction in the record; the process goes
PARKED (R81 to R87). -/
def State.takeFault (s : State) (k q : Nat) (src : BitVec 4) (f : Flt) : State :=
  s.updTile k (fun t =>
    (t.recordFault
      { code := f.code, slot := BitVec.ofNat 3 q, src := src, objk := f.objk, obj := f.obj,
        pc := (t.proc q).pc.setWidth 32, addr := f.addr, time := s.time, aux := f.aux } s.time).updProc q
      (fun p => p.park f.code f.aux))

/-- A fault in monitor code freezes the tile as an emergency (R91). -/
def VTile.monitorFault (t : VTile) : VTile :=
  { t with monStop := true, requests := t.requests ++ [.emergency], emergency := true }

/-- An MSI-X vector is raised. -/
def State.raiseVector (s : State) (v : Nat × Nat) : State := { s with msix := s.msix ++ [v] }

/-- The vector of management events (R302). -/
def manage : Nat × Nat := (0, 2)

/-- The monitor of a tile fails: the tile freezes, and the Idhan controller reports it to the driver (R91, log entry 39). -/
def State.monitorFails (s : State) (k : Nat) : State := (s.updTile k VTile.monitorFault).raiseVector manage

/-- The walk that an access asks for though it lacks a right of the page: the page that a PAGE fault names (R70). -/
def State.walkFault (s : State) (f : Flt) : State :=
  if f.code = codePage then s.updTile s.cur.vt (fun t => t.walk (f.aux.toNat % 16384)) else s

/-- A fault raised at issue by the executing context. -/
def State.raise (s : State) (f : Flt) : State :=
  if s.inMonitor then s.monitorFails s.cur.vt
  else (s.walkFault f).takeFault s.cur.vt s.cur.who 0 f

/-- ILLEGAL, with the word in aux (R152). -/
def State.illegal (s : State) (w : BitVec 32) : State :=
  s.raise { code := codeIllegal, aux := w.setWidth 64 }

/-- PRIV, with the word in aux (R152). -/
def State.privileged (s : State) (w : BitVec 32) : State :=
  s.raise { code := codePriv, aux := w.setWidth 64 }

/-- ENG_DESC at issue with the byte offset of the first bad field (R81). -/
def engDesc (off : Nat) : Flt := { code := codeEngDesc, aux := BitVec.ofNat 64 off }

/-- An access of the executing context: its fault, or what it does with its address. -/
def State.withAccess (s : State) (a : Access) (f : Nat → State → State) : State :=
  match s.check a with
  | .error e => s.raise e
  | .ok addr => f addr (if a.pages then s.walkFor s.cur.vt addr a.size else s)

/-! Waking and completion. -/

/-- A process goes BLOCKED: the blocked-time counter starts and the generation counts (R22, R59). -/
def Proc.block (p : Proc) (w : Wait) : Proc :=
  { p with st := .blocked, wait := w, btime := 0, gen := p.gen + 1, ageing := 0, aged := false }

/-- The count update of a rep after an iteration: gc holds k + 1 and the count less 1; past the last iteration the pc
moves over the repeated word (R197). -/
def Proc.repDone (p : Proc) (gc : Reg) (old : Word) : Proc :=
  let cnt := old.extractLsb' 0 32 - 1#32
  let k := old.extractLsb' 32 32 + 1#32
  let p' := p.wg gc (dataReg (k ++ cnt))
  if cnt = 0 then { p' with pc := p.pc + 8 } else p'

/-- A blocked instruction completes: the process goes on after it, under rep by the count update. Engine faults that
waited for this boundary park it (R84). -/
def Proc.finish (p : Proc) (oldGc : Word) : Proc :=
  let p' := { p with wait := {}, pc := p.pc + 4 }
  match p.wait.rep with
  | none => p'
  | some gc => ({ p with wait := {} }).repDone gc oldGc

/-- The state a process takes when its wait ends: READY, or still FROZEN with prior state READY. -/
def Proc.wake (p : Proc) : Proc :=
  match p.st with
  | .blocked => { p with st := .ready }
  | .frozen => { p with prior := .ready }
  | _ => p

/-- The blocked instruction of a process completes. -/
def Proc.complete (p : Proc) : Proc :=
  (p.finish (match p.wait.rep with | some gc => (p.rg gc).x | none => 0)).wake

/-- A blocked instruction is abandoned as if never issued: the pc stays at it (R84). -/
def Proc.abandon (p : Proc) : Proc := { p with wait := {} }.wake

/-- A record of a page is outstanding that waits for its process to park. -/
def PageRec.awaits (p : PageRec) (f : FaultRec) : Bool :=
  p.unwritten && decide (p.page = f.aux.setWidth 14) && decide (p.by_ = f.slot)

/-- A PAGE fault whose record waits for its process to park makes the page outstanding at once, or joins its waiters
(R72, R87). -/
def VTile.holdPage (t : VTile) (r : FaultRec) : VTile :=
  if r.code ≠ codePage then t
  else if t.outstanding (r.aux.setWidth 14 : BitVec 14).toNat then t.joinPage (r.aux.setWidth 14) r.slot
  else { t with
    pages := t.pages ++ [{ page := r.aux.setWidth 14, by_ := r.slot, waiters := slotBit r.slot, unwritten := true }] }

/-- A fault that waits for the boundary is recorded; code 0 stands for a record already queued while the process was
FROZEN, and the page of a PAGE fault is outstanding since the fault. -/
def VTile.recordPending (t : VTile) (time : Word) (pc : Pc) (f : FaultRec) : VTile :=
  let r := { f with pc := pc.setWidth 32 }
  if f.code = 0 then t
  else if f.code = codePage && t.pages.any (fun p => p.awaits f) then
    { t.queueRec r time with pages := t.pages.map (fun p => if p.awaits f then { p with unwritten := false } else p) }
  else t.recordFault r time

/-- The process parks for a fault that waited for the boundary; it was counted when its record was queued. -/
def Proc.parkPending (p : Proc) (f : FaultRec) : Proc := if f.code = 0 then { p with st := .parked } else p.park f.code f.aux

/-- A process that has just come to a boundary parks for the engine faults that waited for it (R84). -/
def VTile.boundaryPark (t : VTile) (q : Nat) (time : Word) : VTile :=
  let p := t.proc q
  match p.pendFault with
  | [] => t
  | fs =>
    (fs.foldl (fun t f => t.recordPending time p.pc f) t).updProc q (fun p =>
      if p.st = .frozen then { fs.foldl Proc.parkPending p with st := .frozen, efp := true, pendFault := [] }
      else { fs.foldl Proc.parkPending p with pendFault := [] })

/-- A blocked instruction of a slot completes, and the process goes on from the boundary. -/
def State.completeAt (s : State) (k q : Nat) : State :=
  s.updTile k (fun t => (t.updProc q Proc.complete).boundaryPark q s.time)

end Sys2Proof.Machine
end

