-- ==== Sys2Proof/Machine/Sha.lean ====
section
/-! DEFINITION. SHA-256 (log entry 9): the digests of link table, receipts, checkpoints and state. Its constants are
the fractions of roots of primes, computed here from their description. -/

namespace Sys2Proof.Machine

/-- The largest r with rᵏ at most n that lies from r to r + 2ᵇ - 1, one bit at a time. -/
def intRoot (k n : Nat) : Nat → Nat → Nat
  | 0, r => r
  | b + 1, r => intRoot k n b (if (r + 2 ^ b) ^ k ≤ n then r + 2 ^ b else r)

/-- The first 32 bits of the fraction of the k-th root of p. -/
def rootFraction (k p : Nat) : BitVec 32 := BitVec.ofNat 32 (intRoot k (p * 2 ^ (32 * k)) 36 0)

/-- The primes up to 311, of which there are 64. -/
def shaPrimes : List Nat :=
  (List.range 312).filter (fun p => 2 ≤ p && (List.range p).all (fun d => d < 2 || p % d != 0))

/-- The hash value, and the variables of a block's rounds. -/
structure Digest where
  a : BitVec 32
  b : BitVec 32
  c : BitVec 32
  d : BitVec 32
  e : BitVec 32
  f : BitVec 32
  g : BitVec 32
  h : BitVec 32
  deriving DecidableEq, Repr

/-- The first hash value: the square roots of the first eight primes. -/
def Digest.start : Digest :=
  let r := rootFraction 2
  { a := r 2, b := r 3, c := r 5, d := r 7, e := r 11, f := r 13, g := r 17, h := r 19 }

/-- The exclusive or of three rotations to the right. -/
def twist (x : BitVec 32) (i j k : Nat) : BitVec 32 := x.rotateRight i ^^^ x.rotateRight j ^^^ x.rotateRight k

/-- The word that follows sixteen of the message schedule, the oldest first. -/
def nextOfSchedule (win : List (BitVec 32)) : BitVec 32 :=
  let far := win.getD 1 0
  let near := win.getD 14 0
  win.getD 0 0 + win.getD 9 0 + (far.rotateRight 7 ^^^ far.rotateRight 18 ^^^ (far >>> 3))
    + (near.rotateRight 17 ^^^ near.rotateRight 19 ^^^ (near >>> 10))

/-- One round, with its constant and its word of the schedule added beforehand. -/
def Digest.turn (v : Digest) (kw : BitVec 32) : Digest :=
  let pick := (v.e &&& v.f) ||| (~~~v.e &&& v.g)
  let vote := (v.a &&& v.b) ||| (v.c &&& (v.a ||| v.b))
  let up := kw + v.h + pick + twist v.e 6 11 25
  { a := up + vote + twist v.a 2 13 22, b := v.a, c := v.b, d := v.c
    e := v.d + up, f := v.e, g := v.f, h := v.g }

/-- The rounds of a block, each with the cube root of its prime, over a window of sixteen words of the schedule. -/
def Digest.rounds : List Nat → List (BitVec 32) → Digest → Digest
  | [], _, v => v
  | p :: ps, win, v =>
    Digest.rounds ps (win.drop 1 ++ [nextOfSchedule win]) (v.turn (rootFraction 3 p + win.getD 0 0))

/-- The sum of two hash values, word by word. -/
def Digest.plus (u v : Digest) : Digest :=
  { a := u.a + v.a, b := u.b + v.b, c := u.c + v.c, d := u.d + v.d
    e := u.e + v.e, f := u.f + v.f, g := u.g + v.g, h := u.h + v.h }

/-- The sixteen words of a block of 64 bytes, the first byte of each highest. -/
def blockWords (block : List Byte) : List (BitVec 32) :=
  (List.range 16).map (fun i => BitVec.ofNat 32 (ofBytes ((block.drop (4 * i)).take 4).reverse))

/-- The first n blocks of a padded message into the hash value. -/
def Digest.absorb : Nat → List Byte → Digest → Digest
  | 0, _, v => v
  | n + 1, l, v => Digest.absorb n (l.drop 64) (v.plus (Digest.rounds shaPrimes (blockWords (l.take 64)) v))

/-- The 32 bytes of a hash value, the highest byte of each word first. -/
def Digest.bytes (v : Digest) : List Byte :=
  [v.a, v.b, v.c, v.d, v.e, v.f, v.g, v.h].flatMap (fun w => (toBytes 4 w.toNat).reverse)

/-- SHA-256 of a message: a one bit, zeros and the length in bits fill its last block. -/
def sha256 (l : List Byte) : List Byte :=
  let m := l ++ 0x80 :: List.replicate ((119 - l.length % 64) % 64) 0 ++ (toBytes 8 (8 * l.length)).reverse
  (Digest.absorb (m.length / 64) m Digest.start).bytes

end Sys2Proof.Machine
end

