-- ==== Sys2Proof/Machine/Issue.lean ====
section
/-! DEFINITION. Fetching an instruction, and which context issues on a pipe (R29 to R33, R133). -/

namespace Sys2Proof.Machine

/-- The word at a code-store address of a vtile (R133). -/
def VTile.codeWord (t : VTile) (pc : Pc) : BitVec 32 := BitVec.ofNat 32 (ofBytes (Memory.read t.im.code pc.toNat 4))

/-- The word a context fetches: the monitor's from its own code memory (R92). -/
def VTile.fetch (t : VTile) (q : Nat) : BitVec 32 :=
  if q = monitorCtx then BitVec.ofNat 32 (ofBytes (Memory.read t.monCode (t.proc q).pc.toNat 4))
  else t.codeWord (t.proc q).pc

/-- The word after the one a context fetches, at (pc + 4) mod 2^18. -/
def VTile.fetchNext (t : VTile) (q : Nat) : BitVec 32 :=
  if q = monitorCtx then BitVec.ofNat 32 (ofBytes (Memory.read t.monCode ((t.proc q).pc + 4).toNat 4))
  else t.codeWord ((t.proc q).pc + 4)

/-- What a fetched word stands for: its instruction, or the raising of ILLEGAL (R152). -/
def instrOf (w : BitVec 32) : Instr :=
  match decode w with
  | .ok i => i
  | .error _ => .illegalEncoding w

/-- The instruction a context is at. -/
def VTile.instrAt (t : VTile) (q : Nat) : Instr := instrOf (t.fetch q)

/-- The word after a rep is a B-pipe instruction other than rep (R143). -/
def repeatable (w : BitVec 32) : Bool :=
  match decode w with
  | .ok (.rep _ _) => false
  | .ok _ => !onAPipe w
  | .error _ => false

/-- The register fields of a word with the mask bits that advance them: d, a and b (R143). -/
def repFields (k : BitVec 3) : List Nat :=
  (if k.getLsbD 2 then [20] else []) ++ (if k.getLsbD 1 then [15] else []) ++ (if k.getLsbD 0 then [10] else [])

/-- The value of the 5-bit field at a place of a word. -/
def fieldAt (w : BitVec 32) (lo : Nat) : Nat := (w.extractLsb' lo 5).toNat

/-- The word of an iteration: the advancing fields moved on by its index. -/
def repWord (w : BitVec 32) (k : BitVec 3) (n : Nat) : BitVec 32 :=
  (repFields k).foldl (fun v lo => v + BitVec.ofNat 32 (n * 2 ^ lo)) w

/-- An iteration would name a register above 31. -/
def repOver (w : BitVec 32) (k : BitVec 3) (n : Nat) : Bool := (repFields k).any (fun lo => decide (31 < fieldAt w lo + n))

/-- An accumulator's claim would queue a zeroing command (R205). -/
def VTile.claimZeroes (t : VTile) (q : Nat) (c : BitVec 3) (h : AccShape) : Bool :=
  let a := Sparse.get t.im.accs c.toNat
  !a.valid || (decide (a.owner.toNat = q) && decide (a.shape ≠ h))

/-- Entries of the copy queue in use. -/
def VTile.copiesUsed (t : VTile) : Nat := (t.im.copies.filter (fun c => decide (c.2.kind ≠ .none))).length

/-- An instruction needs an entry of an engine queue that is full (R29, R203, R214). -/
def VTile.queueFull (t : VTile) (q : Nat) (i : Instr) : Bool :=
  match i with
  | .mma _ _ _ _ _ | .mld _ _ _ | .mst _ _ _ _ _ | .mzero _ => decide (16 ≤ t.im.mats.length)
  | .mclaim c h => decide (16 ≤ t.im.mats.length) && t.claimZeroes q c h
  | .cpy _ _ _ c => decide (16 ≤ t.copiesUsed) && decide (((t.proc q).rg c).x ≠ 0)
  | .cpyt _ _ _ _ | .cpyr _ _ _ _ _ _ | .cpyxOut _ _ _ _ | .cpyxIn _ _ _ _ => decide (16 ≤ t.copiesUsed)
  | _ => false

/-- The instruction whose queue entry an issue needs (R29): under a rep the iteration's, advanced as it executes; a rep
that executes none, its count being 0 or a fault of its own due, needs no entry (R197). What the form of an instruction
queues is asked before its operands are checked (log entry 90). -/
def VTile.issueNeeds (t : VTile) (q : Nat) : Instr :=
  match t.instrAt q with
  | .rep a k =>
    let c := ((t.proc q).rg a).x
    let n := c.toNat / 2 ^ 32
    let w := t.fetchNext q
    if !repeatable w || decide (c.toNat % 2 ^ 32 = 0) || repOver w k n then .rep a k else instrOf (repWord w k n)
  | i => i

/-- The register of the capability through which an instruction stores to memory. -/
def storeBase (i : Instr) : Option Reg :=
  match i with
  | .stb _ a _ | .sth _ a _ | .stw _ a _ | .std _ a _ | .stc _ a _ => some a
  | .amoadd _ a _ _ | .amoand _ a _ _ | .amoor _ a _ _ | .amoxor _ a _ _ | .amomin _ a _ _ | .amomax _ a _ _
  | .amominn _ a _ _ | .amomaxn _ a _ _ | .amoswp _ a _ _ | .cas _ a _ _ => some a
  | .vst _ a _ _ _ | .vsts _ a _ _ _ | .vsct _ a _ _ _ => some a
  | _ => none

/-- A store through a capability that reaches into the well waits while the log or the pool lacks room (R333, log entry
17). -/
def VTile.storeWaits (t : VTile) (q : Nat) (i : Instr) : Bool :=
  t.starved &&
    (match storeBase i with
     | some a => ((t.proc q).rg a).tag && decide (wellLo < ((t.proc q).rg a).limit.toNat)
     | none => false)

/-- A context's next instruction is for a pipe; `a` says the A pipe. -/
def VTile.onPipe (t : VTile) (q : Nat) (a : Bool) : Bool := onAPipe (t.fetch q) == a

/-- A slot that a spawn or an eret of the present tc has made READY: it is so from the next tc (R24, R246). -/
def VTile.isFresh (t : VTile) (q : Nat) : Bool := t.fresh.getLsbD q

/-- A process is a candidate on a pipe: READY, and its next instruction is for that pipe (R29). -/
def VTile.candidate (t : VTile) (a : Bool) (q : Nat) : Bool :=
  decide ((t.proc q).st = .ready) && !t.isFresh q && t.onPipe q a

/-- A candidate that can issue: no full queue stands in its way, and no store of it waits for a checkpoint's commit. -/
def VTile.canIssue (t : VTile) (a : Bool) (q : Nat) : Bool :=
  t.candidate a q && !t.queueFull q (t.issueNeeds q) && !t.storeWaits q (t.issueNeeds q)

/-- The effective priority of a process: prio, or 4 when aged (R30, R31). -/
def VTile.effPrio (t : VTile) (q : Nat) : Nat :=
  if (t.proc q).aged then 4 else (t.proc q).prio.toNat

/-- The better of two candidates; the earlier in round-robin order wins a tie. -/
def VTile.better (t : VTile) : Option Nat → Nat → Option Nat
  | none, q => some q
  | some p, q => if t.effPrio p < t.effPrio q then some q else some p

/-- The slots in round-robin order after the last to issue on a pipe (R30). -/
def rrOrder (last : BitVec 3) : List Nat := (List.range 8).map (fun j => (last.toNat + 1 + j) % 8)

/-- A context has issued in the present tc: it issues at most one instruction per tc (R29). -/
def VTile.hasIssued (t : VTile) (q : Nat) : Bool := decide (t.issuedA = some q) || decide (t.issuedB = some q)

/-- The monitor has an instruction for a pipe (R30); in a replay its logged words stand in for it (R332). -/
def VTile.monitorIssues (t : VTile) (a : Bool) : Bool :=
  decide (t.monWait = .none) && !t.monStop && t.replay.isNone && t.onPipe monitorCtx a && !t.hasIssued monitorCtx

/-- A tile whose processes and monitor issue at all: neither lost nor failed nor about to roll back. A tile under a
whole-tile freeze has no READY slot. -/
def VTile.runs (t : VTile) : Bool := !t.lost && !t.failed && t.errPending.isNone

/-- An entry of the log is one that a replay presents by itself, or the mark of an issue of the monitor: not one that it presents
between the events of an access. -/
def LogEntry.presentable (e : LogEntry) : Bool := e.part.isNone && (e.event.isSome || e.mon.isSome)

/-- The next entry that a replay presents, once its tick has come. -/
def VTile.nextEntry (t : VTile) : Option LogEntry :=
  ((t.replay.getD []).find? LogEntry.presentable).filter (fun e => decide (e.tick.toNat ≤ t.tick.toNat))

/-- In a replay the monitor holds the pipes that it held in the logged ticks (R332). -/
def VTile.replayHolds (t : VTile) (a : Bool) : Bool :=
  match t.nextEntry with
  | some e => decide (e.mon = some (.issue a))
  | none => false

/-- The context that issues on a pipe of a tile, if any (R30); the one whose vector access has begun, if there is one. -/
def VTile.choose (t : VTile) (a : Bool) : Option Nat :=
  if !t.runs || t.replayHolds a then none
  else if !a && t.ahead.isSome then t.ahead.map (fun h => h.who)
  else if t.monitorIssues a then some monitorCtx
  else ((rrOrder (if a then t.im.rrA else t.im.rrB)).filter (fun q => t.canIssue a q && !t.hasIssued q)).foldl
    t.better none

/-- The bookkeeping of an issue: the round-robin position, and the ageing counter of the process back at 0 (R30, R31). -/
def VTile.issued (t : VTile) (a : Bool) (q : Nat) : VTile :=
  let t := if a then { t with issuedA := some q } else { t with issuedB := some q }
  if q = monitorCtx then t
  else
    { t with im := { t.im with
        rrA := if a then BitVec.ofNat 3 q else t.im.rrA
        rrB := if a then t.im.rrB else BitVec.ofNat 3 q
        procs := Sparse.upd t.im.procs q (fun p => { p with ageing := 0, aged := false }) } }

end Sys2Proof.Machine
end

