-- ==== Sys2Proof/Machine/Turns.lean ====
section
/-! DEFINITION. Whose turn a step is: the order in which tiles, their pipes, the ends of their tc and the fabric take
their turns (log entry 1). -/

namespace Sys2Proof.Machine

/-- A key is that of a vtile. -/
def State.hasTile (s : State) (k : Nat) : Bool := s.vts.any (fun e => e.1 == k)

/-- The tenant of a vtile is the active one of its partition, so the vtile runs on its tile (R316). -/
def State.active (s : State) (k : Nat) : Bool :=
  let p := Sparse.get s.parts (s.tile k).part
  s.hasTile k && if p.act then p.v1 && decide (p.t1.toNat = (s.tile k).tenant) else p.v0 && decide (p.t0.toNat = (s.tile k).tenant)

/-- The vtiles that run, by key. -/
def State.running (s : State) : List Nat := (s.vts.map (fun e => e.1)).filter s.active

/-- What the turn is for: a pipe of a tile (A or B), the end of a tile's tc, or the fabric. -/
inductive Task where
  | issue (k : Nat) (a : Bool)
  | tcEnd (k : Nat)
  | fabric
  deriving DecidableEq, Repr

/-- The turn's task. -/
def State.task (s : State) : Task :=
  match s.running[s.turn.idx]? with
  | none => .fabric
  | some k => if s.turn.phase = 0 then .issue k true else if s.turn.phase = 1 then .issue k false else .tcEnd k

/-- The turn after this one. -/
def Turn.after (t : Turn) : Turn :=
  if t.phase < 2 then { t with phase := t.phase + 1 } else { idx := t.idx + 1, phase := 0 }

/-- The turn passes on. -/
def State.pass (s : State) : State := { s with turn := s.turn.after }

/-- The fabric's turn: package time moves on, and the next round of tiles begins. -/
def State.fabricTurn (s : State) : State :=
  { s with turn := {}, count := s.count + 1, time := s.time + BitVec.ofNat 64 (Config.elapsed s.count) }

/-- A row of the table that is an event of the part. -/
def isEvent (i : Instr) : Bool :=
  match i with
  | .illegalEncoding _ => false
  | i => (encode i).isNone

/-- The events that come from outside the panel, or from its silicon, and so are never chosen by the fabric. -/
def fromOutside : Instr → Bool
  | .supplyOutOfRange | .supplyPowerdown | .regionOvercurrent | .powerEmergencyClear | .thermalEmergency
  | .thermalEmergencyClear | .coolantFlowLow | .coolantFlowPowerdown | .supplyBackInRange | .coolantFlowRestored
  | .correctedError | .rollback | .deliveryFails | .linkLayerRetry | .wellPageLost | .stackLost | .tileFailure
  | .screeningComplete | .linkTrainingDone | .bistDone | .linkDegrade | .hostLinkDown | .flrPf | .flrVf | .tsetWrite
  | .ptmRequest | .ieee1588SyncMessage | .regionReset | .monitorReload | .doorbellWrite | .translationWindowWrite
  | .partitionForm | .partitionDissolve | .partitionAdmit | .registerWrite | .bdlgoWrite | .perstDeassert
  | .conventionalReset | .evictionRequest | .evictionAbort | .evictionTargetWrite | .bladeUnlatch | .supplyAbsent60s
  | .fansResume | .fansNext | .fansKill | .opticalDataCodeword | .opticalAckCodeword | .opticalIdleCodeword
  | .opticalTrainingCodeword | .opticalSignalLoss | .laneLockTimeout | .cpyxElementAck | .cpyxReadDataArrives
  | .rampNeighbourHold | .rampNeighbourRelease | .regionRampComplete | .regionResetDone => true
  | _ => false

/-- The events that the clock brings about: at the end of a tile's tc, or as package time moves on (log entry 1). -/
def clocked : Instr → Bool
  | .poolEntryTakesSlot | .ageingThreshold | .pageWaiterRelease | .deferredFaultRecordWrite | .deadboltProbeStart
  | .deadlinePasses | .replayEnd => true
  | _ => false

/-- A choice of the fabric: an event of its own, or an acknowledgement codeword that leaves a port. A wake of the monitor is
no write of its request register then. -/
def ownEvent (i : Instr) (a : EvArgs) : Bool :=
  (isEvent i && !fromOutside i && !clocked i && !(decide (i = .monitorWake) && a.ok))
    || (decide (i = .opticalAckCodeword) && decide (a.c = 1))

/-- The event the fabric brings about at a turn, if the free choice names one of its own. -/
def State.chosen (s : State) : Option (Instr × EvArgs) :=
  match Config.event s.count with
  | some (i, a) => if ownEvent i a then some (i, a) else none
  | none => none

/-- The oldest input, if it is an event. -/
def State.nextInput (s : State) : Option (Instr × EvArgs) :=
  match s.inputs with
  | (i, a) :: _ => if isEvent i then some (i, a) else none
  | [] => none

/-- The event of a turn of the fabric: the oldest input, or with none a choice of the fabric. -/
def State.turnEvent (s : State) : Option (Instr × EvArgs) :=
  if s.inputs.isEmpty then s.chosen else s.nextInput

end Sys2Proof.Machine
end

