-- ==== Sys2Proof/Machine/Operands.lean ====
section
/-! DEFINITION. Operand forms: immediates, displacements, the footprints of scalar accesses, and the contexts that may
execute a word. -/

namespace Sys2Proof.Machine

/-- The outcome of an instruction that goes on. -/
abbrev Out := Host.Outcome State Fault Refusal

/-- imm15 sign-extended to 64 bits (R135). -/
def imm15 (i : BitVec 15) : Word := i.signExtend 64

/-- The target of a branch: (pc + sext(disp15) x 4) mod 2^18 (R135). -/
def branchTo (pc : Pc) (p : BitVec 15) : Pc := pc + BitVec.ofInt 18 (p.toInt * 4)

/-- The target of jal, and the value of addpc: (pc + sext(disp20) x 4) mod 2^18 (R135, R160). -/
def jumpTo (pc : Pc) (p : BitVec 20) : Pc := pc + BitVec.ofInt 18 (p.toInt * 4)

/-- A word of the constant window; reserved words are never written (R62, R161). -/
def State.const (s : State) (k : BitVec 8) : Word := Sparse.get s.here.im.consts k.toNat

/-- The word of an instruction, as its issue puts it in a record (R81). -/
def wordOf (i : Instr) : BitVec 32 := (encode i).getD 0

/-- An instruction of majors 0x50 to 0x6E: the monitor may not issue it (R92). -/
def State.forProcess (s : State) (i : Instr) (t : State) : State := if s.inMonitor then s.illegal (wordOf i) else t

/-- A monitor word: PRIV when a process issues it (R152, R245). -/
def State.forMonitor (s : State) (i : Instr) (t : State) : State := if s.inMonitor then t else s.privileged (wordOf i)

/-- The access of a scalar load (R65, R170). -/
def loadAccess (g : GReg) (a : Reg) (i : BitVec 15) (size : Nat) : Access :=
  { g := g, reg := a, off := i.toInt, size := size, perms := permL, rd := true }

/-- The access of a scalar store (R65, R171). -/
def storeAccess (g : GReg) (a : Reg) (i : BitVec 15) (size : Nat) : Access :=
  { g := g, reg := a, off := i.toInt, size := size, perms := permS, wr := true }

/-- The access of an atomic: naturally aligned, at the cursor (R65, R174). -/
def atomicAccess (g : GReg) (a : Reg) (size : Nat) : Access :=
  { g := g, reg := a, size := size, perms := permL ||| permS, align := size, rd := true, wr := true }

/-- A number of `8 x size` bits sign-extended to a word. -/
def sextBytes (size v : Nat) : Word := (BitVec.ofNat (8 * size) v).signExtend 64

end Sys2Proof.Machine
end

