-- ==== Sys2Proof/Machine/Flags.lean ====
section
/-! DEFINITION. The float flags, the rounding modes, and how flags are ORed into fst (R109, R114). -/

namespace Sys2Proof.Machine

/-- The sticky flags at their positions in fst [4:0]. -/
abbrev FFlags := BitVec 5

/-- NV, invalid operation. -/
def flagNV : FFlags := 1
/-- DZ, division by zero. -/
def flagDZ : FFlags := 2
/-- OF, overflow. -/
def flagOF : FFlags := 4
/-- UF, underflow. -/
def flagUF : FFlags := 8
/-- NX, inexact. -/
def flagNX : FFlags := 16

/-- A flag when a condition holds. -/
def flagIf (c : Bool) (f : FFlags) : FFlags := if c then f else 0

/-- The rounding modes of frm (R109). -/
inductive RMode where
  | rne | rtz | rdn | rup
  deriving DecidableEq, Repr, Inhabited

/-- The mode a value of frm names. -/
def RMode.of (f : BitVec 2) : RMode :=
  match f.toNat with
  | 0 => .rne
  | 1 => .rtz
  | 2 => .rdn
  | _ => .rup

/-- The mode of the executing process. -/
def State.mode (s : State) : RMode := RMode.of s.proc.frm

/-- Flags ORed into fst of the executing process (R114). -/
def State.orFlags (s : State) (f : FFlags) : State := s.updProc (fun p => { p with fst := p.fst ||| f })

/-- Rounding to an integer goes up, away from the truncated magnitude: `odd` says that magnitude is odd, and `rest`
compares twice what was cut off with one unit. -/
def RMode.goesUp (m : RMode) (neg odd : Bool) (rest : Ordering) (exact : Bool) : Bool :=
  match m with
  | .rne => match rest with
    | .gt => true
    | .eq => odd
    | .lt => false
  | .rtz => false
  | .rdn => neg && !exact
  | .rup => !neg && !exact

end Sys2Proof.Machine
end

