-- ==== Sys2Proof/Machine/Float.lean ====
section
/-! DEFINITION. Floating-point values, exact sums and products, and the one rounding of every result (R104 to R120). -/

namespace Sys2Proof.Machine

/-- A floating-point format (R104). -/
structure Fmt where
  /-- fraction bits -/
  mb : Nat := 0
  /-- exponent bits -/
  eb : Nat := 0
  bias : Nat := 0
  /-- encoding of the largest finite magnitude -/
  maxBits : Nat := 0
  hasInf : Bool := true
  /-- NaN codes: 0 none, 1 the all-ones code alone, 2 as IEEE -/
  nans : Nat := 2
  canon : Nat := 0
  deriving DecidableEq, Repr

/-- FP64. -/
def fmtF64 : Fmt := { mb := 52, eb := 11, bias := 1023, maxBits := 0x7FEFFFFFFFFFFFFF, canon := 0x7FF8000000000000 }
/-- FP32. -/
def fmtF32 : Fmt := { mb := 23, eb := 8, bias := 127, maxBits := 0x7F7FFFFF, canon := 0x7FC00000 }
/-- FP16. -/
def fmtF16 : Fmt := { mb := 10, eb := 5, bias := 15, maxBits := 0x7BFF, canon := 0x7E00 }
/-- BF16. -/
def fmtBf16 : Fmt := { mb := 7, eb := 8, bias := 127, maxBits := 0x7F7F, canon := 0x7FC0 }
/-- E5M2. -/
def fmtE5m2 : Fmt := { mb := 2, eb := 5, bias := 15, maxBits := 0x7B, canon := 0x7E }
/-- E4M3. -/
def fmtE4m3 : Fmt := { mb := 3, eb := 4, bias := 7, maxBits := 0x7E, hasInf := false, nans := 1, canon := 0x7F }
/-- E2M1. -/
def fmtE2m1 : Fmt := { mb := 1, eb := 2, bias := 1, maxBits := 0x7, hasInf := false, nans := 0, canon := 0 }

/-- The format of a float lane type; FP32 for a type that is none. -/
def fmtOf : LaneTy → Fmt
  | .f64 => fmtF64
  | .f16 => fmtF16
  | .bf16 => fmtBf16
  | .e5m2 => fmtE5m2
  | .e4m3 => fmtE4m3
  | .e2m1 => fmtE2m1
  | _ => fmtF32

/-- Bits of an encoding. -/
def Fmt.width (f : Fmt) : Nat := 1 + f.eb + f.mb
/-- The sign bit of an encoding. -/
def Fmt.signBit (f : Fmt) : Nat := 2 ^ (f.eb + f.mb)
/-- The encoding of +infinity. -/
def Fmt.infBits (f : Fmt) : Nat := (2 ^ f.eb - 1) * 2 ^ f.mb
/-- A format with 8 bits or fewer saturates (R111). -/
def Fmt.saturates (f : Fmt) : Bool := decide (f.width ≤ 8)

/-- A value: a NaN (signalling or not), an infinity, or (-1)^neg x m x 2^e. -/
inductive FVal where
  | nan (signalling : Bool)
  | inf (neg : Bool)
  | fin (neg : Bool) (m : Nat) (e : Int)
  deriving DecidableEq, Repr

/-- The sign of a value; a NaN has none. -/
def FVal.neg : FVal → Bool
  | .nan _ => false
  | .inf s => s
  | .fin s _ _ => s

/-- The value with its sign inverted. -/
def FVal.negate : FVal → FVal
  | .nan s => .nan s
  | .inf s => .inf (!s)
  | .fin s m e => .fin (!s) m e

/-- A NaN. -/
def FVal.isNan : FVal → Bool
  | .nan _ => true
  | _ => false

/-- A signalling NaN, or what stands for an invalid product. -/
def FVal.isSnan : FVal → Bool
  | .nan s => s
  | _ => false

/-- A zero of either sign. -/
def FVal.isZero : FVal → Bool
  | .fin _ m _ => m == 0
  | _ => false

/-- The value of an encoding (R104, R105). -/
def Fmt.unpack (f : Fmt) (bits : Nat) : FVal :=
  let mag := bits % f.signBit
  let neg := decide (f.signBit ≤ bits % (2 * f.signBit))
  let frac := mag % 2 ^ f.mb
  let ex := mag / 2 ^ f.mb
  if f.nans = 2 && decide (ex = 2 ^ f.eb - 1) then
    if frac = 0 then .inf neg else .nan (decide (frac < 2 ^ (f.mb - 1)))
  else if f.nans = 1 && decide (mag = f.signBit - 1) then .nan false
  else if ex = 0 then .fin neg frac (1 - (f.bias : Int) - f.mb)
  else .fin neg (2 ^ f.mb + frac) ((ex : Int) - f.bias - f.mb)

/-- An encoding with its sign. -/
def Fmt.signed (f : Fmt) (neg : Bool) (mag : Nat) : Nat := (if neg then f.signBit else 0) + mag

/-- m x 2^e rounded to a multiple of 2^q, as a number of such units, and whether it was exact. -/
def roundUnits (mode : RMode) (neg : Bool) (m : Nat) (e q : Int) : Nat × Bool :=
  if q ≤ e then (m * 2 ^ (e - q).toNat, true)
  else
    let k := (q - e).toNat
    let n := m / 2 ^ k
    let r := m % 2 ^ k
    let up := mode.goesUp neg (n % 2 == 1) (compare (2 * r) (2 ^ k)) (r == 0)
    (if up then n + 1 else n, r == 0)

/-- What overflow delivers (R111). -/
def Fmt.overflowMag (f : Fmt) (mode : RMode) (neg : Bool) : Nat :=
  if f.saturates then f.maxBits
  else match mode, neg with
    | .rne, _ => f.infBits
    | .rtz, _ => f.maxBits
    | .rdn, false => f.maxBits
    | .rdn, true => f.infBits
    | .rup, false => f.infBits
    | .rup, true => f.maxBits

/-- The exponent of the last place of a format at a magnitude whose leading bit has exponent `lead`. -/
def Fmt.lastPlace (f : Fmt) (lead : Int) : Int := max lead (1 - (f.bias : Int)) - f.mb

/-- The encoding of `n` units of the last place 2^q. -/
def Fmt.magAt (f : Fmt) (q : Int) (n : Nat) : Nat := ((q + f.mb + f.bias - 1) * 2 ^ f.mb + n).toNat

/-- The exponent of the leading bit of a nonzero magnitude. -/
def leadOf (m : Nat) (e : Int) : Int := (Nat.log2 m : Int) + e

/-- Tininess after rounding (R111): rounded to the precision with an unbounded exponent range, the magnitude lies below
the min normal 2^(1 - bias). -/
def Fmt.tiny (f : Fmt) (mode : RMode) (neg : Bool) (m : Nat) (e : Int) : Bool :=
  decide (leadOf m e < 1 - (f.bias : Int))
    && !(decide (leadOf m e = -(f.bias : Int))
      && decide ((roundUnits mode neg m e (leadOf m e - f.mb)).1 = 2 ^ (f.mb + 1)))

/-- What an encoding of an FP result and its flags are. -/
abbrev FRes := Nat × FFlags

/-- A nonzero magnitude m x 2^e rounded once to a format, with the flags of R111. -/
def Fmt.roundMag (f : Fmt) (mode : RMode) (neg : Bool) (m : Nat) (e : Int) : FRes :=
  let q := f.lastPlace (leadOf m e)
  let r := roundUnits mode neg m e q
  if f.maxBits < f.magAt q r.1 then (f.signed neg (f.overflowMag mode neg), flagOF ||| flagNX)
  else (f.signed neg (f.magAt q r.1), flagIf (!r.2) flagNX ||| flagIf (!r.2 && f.tiny mode neg m e) flagUF)

/-- A NaN delivered into a format (R105, R116). -/
def Fmt.deliverNan (f : Fmt) (signalling : Bool) : FRes := (f.canon, flagIf (signalling || f.nans == 0) flagNV)

/-- An infinity delivered into a format (R116). -/
def Fmt.deliverInf (f : Fmt) (neg : Bool) : FRes :=
  if f.hasInf then (f.signed neg f.infBits, 0) else (f.signed neg f.maxBits, flagNV)

/-- A value delivered into a format with one rounding. -/
def Fmt.deliver (f : Fmt) (mode : RMode) : FVal → FRes
  | .nan g => f.deliverNan g
  | .inf s => f.deliverInf s
  | .fin s m e => if m = 0 then (f.signed s 0, 0) else f.roundMag mode s m e

/-! Sums and products. -/

/-- An exact product; 0 x infinity counts as a signalling NaN because both give a canonical NaN with NV (R112). -/
def FVal.mul : FVal → FVal → FVal
  | .nan a, b => .nan (a || b.isSnan)
  | _, .nan b => .nan b
  | .inf a, .inf b => .inf (a != b)
  | .inf a, .fin b m _ => if m = 0 then .nan true else .inf (a != b)
  | .fin a m _, .inf b => if m = 0 then .nan true else .inf (a != b)
  | .fin a m e, .fin b n d => .fin (a != b) (m * n) (e + d)

/-- The lowest exponent of the finite terms of a sum. -/
def minExp : List FVal → Int → Int
  | [], lo => lo
  | .fin _ _ e :: r, lo => minExp r (min e lo)
  | _ :: r, lo => minExp r lo

/-- The exact sum of the finite terms in units of 2^lo. -/
def sumUnits : List FVal → Int → Int
  | [], _ => 0
  | .fin s m e :: r, lo => (if s then -1 else 1) * ((m * 2 ^ (e - lo).toNat : Nat) : Int) + sumUnits r lo
  | _ :: r, lo => sumUnits r lo

/-- A term is the infinity of a sign. -/
def FVal.isInf (v : FVal) (neg : Bool) : Bool := decide (v = .inf neg)

/-- An exact sum of terms: NaNs and infinities by R112, the sign of an exact zero by R113. -/
def fsum (mode : RMode) (ts : List FVal) : FVal :=
  if ts.any FVal.isNan || (ts.any (FVal.isInf · false) && ts.any (FVal.isInf · true)) then
    .nan (ts.any FVal.isSnan || (ts.any (FVal.isInf · false) && ts.any (FVal.isInf · true)))
  else if ts.any (FVal.isInf · false) then .inf false
  else if ts.any (FVal.isInf · true) then .inf true
  else
    let lo := minExp ts 0
    let v := sumUnits ts lo
    if v = 0 then .fin (ts.all FVal.neg || decide (mode = .rdn)) 0 0
    else .fin (decide (v < 0)) v.natAbs lo

/-! Quotients and roots. A result that is not exact is given with a last bit that says so, far below the last place of
any format. -/

/-- A magnitude with a sticky last bit. -/
def withSticky (n : Nat) (exact : Bool) : Nat := 2 * n + (if exact then 0 else 1)

/-- A quotient of nonzero magnitudes with at least `p` bits. -/
def quotMag (p m n : Nat) : Nat := withSticky (m * 2 ^ (p + Nat.log2 n) / n) (m * 2 ^ (p + Nat.log2 n) % n == 0)

/-- Whether a quotient divides a finite nonzero value by zero (R112). -/
def divByZero : FVal → FVal → Bool
  | .fin _ m _, .fin _ n _ => m != 0 && n == 0
  | _, _ => false

/-- A quotient (R112, R113). -/
def FVal.div (p : Nat) : FVal → FVal → FVal
  | .nan a, b => .nan (a || b.isSnan)
  | _, .nan b => .nan b
  | .inf _, .inf _ => .nan true
  | .inf a, .fin b _ _ => .inf (a != b)
  | .fin a _ _, .inf b => .fin (a != b) 0 0
  | .fin a m e, .fin b n d =>
    if n = 0 then (if m = 0 then .nan true else .inf (a != b))
    else if m = 0 then .fin (a != b) 0 0
    else .fin (a != b) (quotMag p m n) (e - d - (p + Nat.log2 n + 1 : Nat))

/-- The floor of the square root of `n`, found from bit `b - 1` down. -/
def isqrt (n : Nat) : Nat → Nat → Nat
  | 0, acc => acc
  | b + 1, acc => isqrt n b (if (acc + 2 ^ b) * (acc + 2 ^ b) ≤ n then acc + 2 ^ b else acc)

/-- The floor of a square root. -/
def floorSqrt (n : Nat) : Nat := isqrt n (Nat.log2 n / 2 + 1) 0

/-- The square root of a nonzero magnitude m x 2^e with at least `p` bits. -/
def sqrtMag (p m : Nat) (e : Int) : FVal :=
  let odd := e % 2 = 1
  let n := (if odd then 2 * m else m) * 2 ^ (2 * p)
  let r := floorSqrt n
  .fin false (withSticky r (r * r == n)) (((if odd then e - 1 else e) / 2) - p - 1)

/-- The reciprocal square root of a nonzero magnitude m x 2^e with many bits. -/
def rsqrtMag (p m : Nat) (e : Int) : FVal :=
  let odd := e % 2 = 1
  let n := if odd then 2 * m else m
  let r := floorSqrt (2 ^ (2 * p) / n)
  .fin false (withSticky r (r * r * n == 2 ^ (2 * p))) (-((if odd then e - 1 else e) / 2) - p - 1)

/-- A square root (R112, R113). -/
def FVal.sqrt (p : Nat) : FVal → FVal
  | .nan g => .nan g
  | .inf s => if s then .nan true else .inf false
  | .fin s m e => if m = 0 then .fin s 0 0 else if s then .nan true else sqrtMag p m e

/-- Bits a quotient or root carries beyond the fraction of its format. -/
def Fmt.bits (f : Fmt) : Nat := f.mb + 4

/-! Order, class and sign. -/

/-- Compare two finite values. -/
def cmpFin (a b : FVal) : Ordering :=
  let lo := minExp [a, b] 0
  compare (sumUnits [a] lo) (sumUnits [b] lo)

/-- Compare two values that are no NaN; the zeros are equal. -/
def FVal.cmp : FVal → FVal → Ordering
  | .inf false, .inf false => .eq
  | .inf true, .inf true => .eq
  | .inf false, _ => .gt
  | .inf true, _ => .lt
  | _, .inf false => .lt
  | _, .inf true => .gt
  | a, b => cmpFin a b

/-- The comparison a float compare makes (R180, R189). -/
inductive FCmp where
  | eq | ne | lt | le
  deriving DecidableEq, Repr

/-- The result of a comparison of two values. -/
def FCmp.holds (c : FCmp) (a b : FVal) : Bool :=
  if a.isNan || b.isNan then decide (c = .ne)
  else match c with
    | .eq => a.cmp b == .eq
    | .ne => a.cmp b != .eq
    | .lt => a.cmp b == .lt
    | .le => a.cmp b != .gt

/-- The flags of a comparison (R112, R189). -/
def FCmp.flags (c : FCmp) (a b : FVal) : FFlags :=
  match c with
  | .eq | .ne => flagIf (a.isSnan || b.isSnan) flagNV
  | .lt | .le => flagIf (a.isNan || b.isNan) flagNV

/-- minimumNumber: the first operand is the lesser, -0 below +0 (R112). -/
def FVal.below (a b : FVal) : Bool :=
  match a.cmp b with
  | .lt => true
  | .eq => a.neg && !b.neg
  | .gt => false

/-- fmin and fmax on encodings (R112). -/
def Fmt.minmax (f : Fmt) (isMax : Bool) (x y : Nat) : FRes :=
  let a := f.unpack x
  let b := f.unpack y
  let r := if a.isNan && b.isNan then f.canon
    else if a.isNan then y
    else if b.isNan then x
    else if isMax then (if a.below b then y else x)
    else if b.below a then y else x
  (r, flagIf (a.isSnan || b.isSnan) flagNV)

/-- fclass (R179). -/
def Fmt.classBits (f : Fmt) (x : Nat) : Nat :=
  match f.unpack x with
  | .nan true => 256
  | .nan false => 512
  | .inf true => 1
  | .inf false => 128
  | .fin s m _ =>
    if m = 0 then (if s then 8 else 16)
    else if m < 2 ^ f.mb then (if s then 4 else 32)
    else if s then 2 else 64

/-! Conversions. -/

/-- A value to an integer between two bounds (R117). -/
def FVal.toInt (mode : RMode) (lo hi : Int) : FVal → Int × FFlags
  | .nan _ => (0, flagNV)
  | .inf s => (if s then lo else hi, flagNV)
  | .fin s m e =>
    let r := roundUnits mode s m e 0
    let n : Int := if s then -(r.1 : Int) else r.1
    if n < lo then (lo, flagNV) else if hi < n then (hi, flagNV) else (n, flagIf (!r.2) flagNX)

/-- An integer as a value. -/
def intVal (n : Int) : FVal := .fin (decide (n < 0)) n.natAbs 0

/-- The magnitude of a stochastic rounding in units of the last place (R118). -/
def srUnits (m : Nat) (e q : Int) (u : Nat) : Nat :=
  let t := if q ≤ e + 32 then m * 2 ^ (e + 32 - q).toNat else m / 2 ^ (q - e - 32).toNat
  (t + u) / 2 ^ 32

/-- A stochastic rounding of a value with the draw `u` (R118). -/
def Fmt.deliverSr (f : Fmt) (u : Nat) : FVal → FRes
  | .nan g => f.deliverNan g
  | .inf s => f.deliverInf s
  | .fin s m e =>
    if m = 0 then (f.signed s 0, 0)
    else
      let q := f.lastPlace (leadOf m e)
      let n := srUnits m e q u
      let ovf := decide (f.maxBits < f.magAt q n)
      let exact := (roundUnits .rtz s m e q).2 && decide (f.magAt q (roundUnits .rtz s m e q).1 ≤ f.maxBits)
      (f.signed s (if ovf then (if f.saturates then f.maxBits else f.infBits) else f.magAt q n),
        flagIf (!exact) flagNX ||| flagIf (!exact && decide (f.magAt q n < 2 ^ f.mb)) flagUF ||| flagIf ovf flagOF)

/-! Special functions (R120). The irrational results are computed to many more bits than the format has, and rounded
once with a sticky last bit (log entry 8). -/

/-- Fraction bits of the computation of 2^x. -/
def expBits : Nat := 200

/-- 2^(frac / 2^w) in units of 2^-expBits, for the fraction bits from the top down; `root` is 2^(2^-j). -/
def expFrac (frac : Nat) : Nat → Nat → Nat → Nat
  | 0, _, acc => acc
  | w + 1, root, acc =>
    let r := floorSqrt (root * 2 ^ expBits)
    expFrac frac w r (if frac.testBit w then acc * r / 2 ^ expBits else acc)

/-- 2^x of a finite nonzero x = (-1)^s m x 2^e. Far outside the format's range any exponent gives the same result. -/
def exp2Fin (s : Bool) (m : Nat) (e : Int) : FVal :=
  if 8 ≤ leadOf m e then .fin false 3 (if s then -300 else 300)
  else
    let w := (-e).toNat
    let n := m * 2 ^ e.toNat
    let i : Int := if s then -(((n + 2 ^ w - 1) / 2 ^ w : Nat) : Int) else ((n / 2 ^ w : Nat) : Int)
    let frac := if s then (2 ^ w - n % 2 ^ w) % 2 ^ w else n % 2 ^ w
    if frac = 0 then .fin false 1 i
    else .fin false (withSticky (expFrac frac w (2 ^ (expBits + 1)) (2 ^ expBits)) false) (i - expBits - 1)

/-- vexp2. -/
def FVal.exp2 : FVal → FVal
  | .nan g => .nan g
  | .inf s => if s then .fin false 0 0 else .inf false
  | .fin s m e => if m = 0 then .fin false 1 0 else exp2Fin s m e

/-- Fraction bits of the numbers squared, and squarings, in the computation of the logarithm. -/
def logBits : Nat := 320

/-- The next bits of the logarithm of y x 2^-logBits, which lies in [1, 2). -/
def logFrac : Nat → Nat → Nat → Nat
  | 0, _, acc => acc
  | k + 1, y, acc =>
    let z := y * y / 2 ^ logBits
    if 2 ^ (logBits + 1) ≤ z then logFrac k (z / 2) (2 * acc + 1) else logFrac k z (2 * acc)

/-- log2 of a nonzero magnitude. -/
def log2Fin (m : Nat) (e : Int) : FVal :=
  let lead := leadOf m e
  if m = 2 ^ Nat.log2 m then .fin (decide (lead < 0)) lead.natAbs 0
  else
    let v : Int := 2 * (lead * 2 ^ 128 + logFrac 128 (m * 2 ^ logBits / 2 ^ Nat.log2 m) 0) + 1
    .fin (decide (v < 0)) v.natAbs (-129)

/-- vlog2. -/
def FVal.log2 : FVal → FVal
  | .nan g => .nan g
  | .inf s => if s then .nan true else .inf false
  | .fin s m e => if m = 0 then .inf true else if s then .nan true else log2Fin m e

/-- vrsq. -/
def FVal.rsqrt : FVal → FVal
  | .nan g => .nan g
  | .inf s => if s then .nan true else .fin false 0 0
  | .fin s m e => if m = 0 then .inf s else if s then .nan true else rsqrtMag 80 m e

/-- Whether a special function divides by zero: an operand of either zero (R120). -/
def zeroDZ (v : FVal) : FFlags := flagIf v.isZero flagDZ

/-! The random stream (R127). -/

/-- The constants kc, sa and sb of a round. -/
def rngRound (x y : Word) (kc : Word) (sa sb : Nat) : Word × Word :=
  let x' := (x + y + kc).rotateLeft sa
  (x', (y ^^^ x').rotateLeft sb)

/-- The rounds of rng_f. -/
def rngRounds : List (Word × Nat × Nat) :=
  [(0x6A1D3F58C2E791B3, 13, 37), (0xB47C0E295AF36D81, 29, 11), (0x2F95E6C107B4A85D, 41, 19),
   (0xD3E841A79C520F6B, 7, 47), (0x58B2C97DE31A4C07, 53, 3), (0x917F2A64B8D5E339, 23, 31)]

/-- rng_f. -/
def rngF (key ctr : Word) : Word :=
  let r := rngRounds.foldl (fun (p : Word × Word) c => rngRound p.1 p.2 c.1 c.2.1 c.2.2) (ctr, key)
  r.1 ^^^ r.2

/-- rng_h, the H of R18. -/
def rngH (seed n : Word) : Word := rngF (seed ^^^ 0x3C5A96E10F87D24B) n

end Sys2Proof.Machine
end

