-- ==== Sys2Proof/Machine/ScalarFloat.lean ====
section
/-! DEFINITION. Scalar floating point (R177 to R182). -/

namespace Sys2Proof.Machine

/-- The format of a width bit: FP32 or FP64. -/
def fmtW (w : Bool) : Fmt := if w then fmtF64 else fmtF32

/-- The encoding a float operand reads: bits [31:0] or [63:0] (R177). -/
def floatBits (w : Bool) (x : Word) : Nat := if w then x.toNat else x.toNat % 2 ^ 32

/-- The value a float operand reads. -/
def State.fx (s : State) (w : Bool) (r : Reg) : FVal := (fmtW w).unpack (floatBits w (s.x r))

/-- A float result with its flags: a data write, and the flags ORed into fst (R114, R177). -/
def State.fput (s : State) (d : Reg) (r : FRes) : Out := .next ((s.orFlags r.2).put d (BitVec.ofNat 64 r.1))

/-- A value rounded once per frm and written (R178). -/
def State.fround (s : State) (d : Reg) (w : Bool) (v : FVal) : Out := s.fput d ((fmtW w).deliver s.mode v)

/-- A fused form: a product and a third value, with the signs of R178. -/
def State.fused (s : State) (d a b c : Reg) (w negProduct negC : Bool) : Out :=
  let p := (s.fx w a).mul (s.fx w b)
  s.fround d w (fsum s.mode [if negProduct then p.negate else p, if negC then (s.fx w c).negate else s.fx w c])

/-- fadd. -/
def execFadd (d a b : Reg) (w : Bool) (s : State) : Out := s.fround d w (fsum s.mode [s.fx w a, s.fx w b])
/-- fsub: a + (-b). -/
def execFsub (d a b : Reg) (w : Bool) (s : State) : Out := s.fround d w (fsum s.mode [s.fx w a, (s.fx w b).negate])
/-- fmul. -/
def execFmul (d a b : Reg) (w : Bool) (s : State) : Out := s.fround d w ((s.fx w a).mul (s.fx w b))
/-- fdiv. -/
def execFdiv (d a b : Reg) (w : Bool) (s : State) : Out :=
  let r := (fmtW w).deliver s.mode (FVal.div (fmtW w).bits (s.fx w a) (s.fx w b))
  s.fput d (r.1, r.2 ||| flagIf (divByZero (s.fx w a) (s.fx w b)) flagDZ)
/-- fsqrt. -/
def execFsqrt (d a : Reg) (w : Bool) (s : State) : Out := s.fround d w (FVal.sqrt (fmtW w).bits (s.fx w a))
/-- fma: a x b + c. -/
def execFma (d a b c : Reg) (w : Bool) (s : State) : Out := s.fused d a b c w false false
/-- fms: a x b + (-c). -/
def execFms (d a b c : Reg) (w : Bool) (s : State) : Out := s.fused d a b c w false true
/-- fnma: (-a x b) + (-c). -/
def execFnma (d a b c : Reg) (w : Bool) (s : State) : Out := s.fused d a b c w true true
/-- fnms: (-a x b) + c. -/
def execFnms (d a b c : Reg) (w : Bool) (s : State) : Out := s.fused d a b c w true false
/-- fmin. -/
def execFmin (d a b : Reg) (w : Bool) (s : State) : Out :=
  s.fput d ((fmtW w).minmax false (floatBits w (s.x a)) (floatBits w (s.x b)))
/-- fmax. -/
def execFmax (d a b : Reg) (w : Bool) (s : State) : Out :=
  s.fput d ((fmtW w).minmax true (floatBits w (s.x a)) (floatBits w (s.x b)))

/-- The sign bit of an operand is set. -/
def State.fsign (s : State) (w : Bool) (r : Reg) : Bool := decide ((fmtW w).signBit ≤ floatBits w (s.x r))

/-- A copy of an operand with its sign replaced, every other bit kept (R179). -/
def State.withSign (s : State) (d a : Reg) (w neg : Bool) : Out :=
  .next (s.put d (BitVec.ofNat 64 ((fmtW w).signed neg (floatBits w (s.x a) % (fmtW w).signBit))))

/-- fsgn.j. -/
def execFsgnJ (d a b : Reg) (w : Bool) (s : State) : Out := s.withSign d a w (s.fsign w b)
/-- fsgn.n. -/
def execFsgnN (d a b : Reg) (w : Bool) (s : State) : Out := s.withSign d a w (!s.fsign w b)
/-- fsgn.x. -/
def execFsgnX (d a b : Reg) (w : Bool) (s : State) : Out := s.withSign d a w (s.fsign w a != s.fsign w b)
/-- fclass. -/
def execFclass (d a : Reg) (w : Bool) (s : State) : Out :=
  .next (s.put d (BitVec.ofNat 64 ((fmtW w).classBits (floatBits w (s.x a)))))

/-- A float compare writes 1 or 0 (R180). -/
def State.fcompare (s : State) (d a b : Reg) (w : Bool) (c : FCmp) : Out :=
  s.fput d (if c.holds (s.fx w a) (s.fx w b) then 1 else 0, c.flags (s.fx w a) (s.fx w b))

/-- fcmp.eq. -/
def execFcmpEq (d a b : Reg) (w : Bool) (s : State) : Out := s.fcompare d a b w .eq
/-- fcmp.lt. -/
def execFcmpLt (d a b : Reg) (w : Bool) (s : State) : Out := s.fcompare d a b w .lt
/-- fcmp.le. -/
def execFcmpLe (d a b : Reg) (w : Bool) (s : State) : Out := s.fcompare d a b w .le

/-- The width of a lane type in bits (R183). -/
def laneBits : LaneTy → Nat
  | .s8 | .n8 | .e4m3 | .e5m2 => 8
  | .s16 | .n16 | .f16 | .bf16 => 16
  | .s32 | .n32 | .f32 => 32
  | .s64 | .n64 | .f64 => 64
  | .e2m1 => 4

/-- The integer an encoding of an integer type stands for. -/
def intOf (t : LaneTy) (x : Nat) : Int :=
  if t.isSigned then (BitVec.ofNat (laneBits t) x).toInt else ((x % 2 ^ laneBits t : Nat) : Int)

/-- The least value of an integer type. -/
def intLo (t : LaneTy) : Int := if t.isSigned then -(2 ^ (laneBits t - 1) : Nat) else 0
/-- The greatest value of an integer type. -/
def intHi (t : LaneTy) : Int := if t.isSigned then ((2 ^ (laneBits t - 1) : Nat) : Int) - 1 else ((2 ^ laneBits t : Nat) : Int) - 1

/-- The encoding of an integer in a width. -/
def encInt (w : Nat) (n : Int) : Nat := (BitVec.ofInt w n).toNat

/-- The value a source of a conversion stands for: an integer or a float. -/
def sourceVal (t : LaneTy) (x : Nat) : FVal :=
  if t.isInt then intVal (intOf t x) else (fmtOf t).unpack (x % 2 ^ laneBits t)

/-- One conversion; `u` is the draw of a .sr form (R115 to R118). -/
def convert (mode : RMode) (t s : LaneTy) (sr : Bool) (u x : Nat) : FRes :=
  if t.isInt then
    let r := (sourceVal s x).toInt mode (intLo t) (intHi t)
    (encInt (laneBits t) r.1, r.2)
  else if sr then (fmtOf t).deliverSr u (sourceVal s x)
  else (fmtOf t).deliver mode (sourceVal s x)

/-- A result of a type as a g register receives it: sign-extended for signed integers (R181). -/
def extendTo (t : LaneTy) (x : Nat) : Word :=
  if t.isSigned then (BitVec.ofNat (laneBits t) x).signExtend 64 else BitVec.ofNat 64 (x % 2 ^ laneBits t)

/-- The draw `n` places on in the process's stream (R127). -/
def State.draw (s : State) (n : Nat) : Word := rngF s.proc.rngk (s.proc.rngn + BitVec.ofNat 64 n)

/-- The stream's counter moved on by the outputs consumed. -/
def State.drawn (s : State) (n : Nat) : State := s.updProc (fun p => { p with rngn := p.rngn + BitVec.ofNat 64 n })

/-- fcvt (R181, R119). -/
def execFcvt (d a : Reg) (t s : LaneTy) (r : Bool) (z : State) : Out :=
  let q := convert z.mode t s r ((z.draw 0).toNat / 2 ^ 32) (z.x a).toNat
  .next (((z.orFlags q.2).drawn (if r then 1 else 0)).put d (extendTo t q.1))
/-- fmvk (R182). -/
def execFmvk (d : Reg) (k : BitVec 8) (w : Bool) (s : State) : Out :=
  .next (s.put d (if w then s.const k else (s.const k).setWidth 32 |>.setWidth 64))

end Sys2Proof.Machine
end

