-- ==== Sys2Proof/Machine/VecOps.lean ====
section
/-! DEFINITION. Vector registers and the pumps behind v28 to v31: lanes, masks, pops, appends and their faults (R183,
R184, R199, R200). -/

namespace Sys2Proof.Machine

/-! Pumps. -/

/-- The pump of a v register: p0 to p3 stand behind v28 to v31. -/
def pumpNum (r : Reg) : Nat := r.toNat - 28

/-- A pump of a process. -/
def Proc.pump (p : Proc) (k : Nat) : Pump := Sparse.get p.pumps k

/-- A process with one pump changed. -/
def Proc.updPump (p : Proc) (k : Nat) (f : Pump → Pump) : Proc := { p with pumps := Sparse.upd p.pumps k f }

/-- A read of a v register pops an input pump. -/
def Proc.pops (p : Proc) (r : Reg) : Bool :=
  decide (28 ≤ r.toNat) && (p.pump (pumpNum r)).bound && !(p.pump (pumpNum r)).out

/-- A write of a v register appends to an output pump. -/
def Proc.appends (p : Proc) (r : Reg) : Bool :=
  decide (28 ≤ r.toNat) && (p.pump (pumpNum r)).bound && (p.pump (pumpNum r)).out

/-- The elements of a pump (R199). -/
def Pump.count (u : Pump) : BitVec 32 := u.desc.extractLsb' 32 32

/-- The offset of an element from the cursor (R199). -/
def Pump.offset (u : Pump) (k : Nat) : Int := (u.desc.setWidth 32 : BitVec 32).toInt * k

/-- The address of an element (R199). -/
def Pump.place (u : Pump) (k : Nat) : Nat := ((u.cap.cursor.toNat : Int) + u.offset k).emod (2 ^ 32) |>.toNat

/-- A pump is at its count. -/
def Pump.done (u : Pump) : Bool := decide (u.pos = u.count)

/-- The 64 bytes at an address as a register value. -/
def State.vecAt (s : State) (k a : Nat) : Vec := BitVec.ofNat 512 (ofBytes (s.readBytes k a 64))

/-- A v register of the executing context as the register holds it. -/
def Proc.rv (p : Proc) (r : Reg) : Vec := Sparse.get p.v r.toNat

/-- An element of an input pump as it is read: units read ahead in their places (R75). -/
def State.elementAt (s : State) (k : Nat) (u : Pump) (n : Nat) : Vec :=
  BitVec.ofNat 512 (ofBytes (mixUnits u.early (8 * n) (s.readBytes k (u.place n) 64)))

/-- The element the next pop of a pump delivers: the prefetched one, else the one read now (R75). -/
def State.popped (s : State) (r : Reg) : Vec :=
  let u := s.proc.pump (pumpNum r)
  match Sparse.get u.fetched u.pos.toNat with
  | some v => v
  | none => s.elementAt s.cur.vt u u.pos.toNat

/-- The walk that a pop asks for: that of an element not prefetched (R70). -/
def State.popWalk (s : State) (r : Reg) : State :=
  let u := s.proc.pump (pumpNum r)
  if (Sparse.get u.fetched u.pos.toNat).isNone then s.walkFor s.cur.vt (u.place u.pos.toNat) 64 else s

/-- What a v register delivers to an instruction that reads it: the popped element of an input pump, else the register
(R200). -/
def State.v (s : State) (r : Reg) : Vec := if s.proc.pops r then s.popped r else s.proc.rv r

/-- The page fault of a pop: its element is not prefetched and lies in a page without Rd (R71, R85). -/
def State.popPage (s : State) (r : Reg) : Option Flt :=
  let u := s.proc.pump (pumpNum r)
  if s.proc.pops r && !u.done && (Sparse.get u.fetched u.pos.toNat).isNone then
    (s.checkPages s.cur.vt (u.place u.pos.toNat) 64 true false).map
      (fun f => { f with objk := 3, obj := BitVec.ofNat 8 (pumpNum r) })
  else none

/-- A fault that concerns a pump at its count (R200). -/
def pumpFlt (code : BitVec 8) (u : Pump) (k : Nat) : Flt :=
  { code := code, aux := u.count.setWidth 64, objk := 3, obj := BitVec.ofNat 8 k }

/-- PUMP_EMPTY of a read, if any. -/
def State.popEmpty (s : State) (r : Reg) : Option Flt :=
  let u := s.proc.pump (pumpNum r)
  if s.proc.pops r && u.done then some (pumpFlt codePumpEmpty u (pumpNum r)) else none

/-- PUMP_FULL of a write, if any. -/
def State.appendFull (s : State) (r : Reg) : Option Flt :=
  let u := s.proc.pump (pumpNum r)
  if s.proc.appends r && u.done then some (pumpFlt codePumpFull u (pumpNum r)) else none

/-- The pump faults of an instruction that reads and writes given v registers: missing page rights before empty and
full pumps (R82). Of several pumps the first fault in the order of the lists is raised, and an empty pump before a full
one: the model's choice (log entry 91). -/
def State.pumpFault (s : State) (reads writes : List Reg) : Option Flt :=
  ((reads.findSome? s.popPage).orElse (fun _ => reads.findSome? s.popEmpty)).orElse
    (fun _ => writes.findSome? s.appendFull)

/-- A pump whose next element has been popped. -/
def Pump.popOne (u : Pump) : Pump :=
  { u with
    fetched := Sparse.set u.fetched u.pos.toNat none, early := dropUnits u.early u.pos.toNat, pos := u.pos + 1 }

/-- A pop of an input pump: the element comes into the register and the position advances (R200). -/
def State.pop (s : State) (r : Reg) : State :=
  if s.proc.pops r then
    (s.popWalk r).updProc (fun p => { p.updPump (pumpNum r) Pump.popOne with
      v := Sparse.set p.v r.toNat (s.popped r) })
  else s

/-- The pops of an instruction: at most one for each pump (R200). -/
def State.popAll (s : State) (reads : List Reg) : State := reads.eraseDups.foldl State.pop s

/-- A v register as written: a write to an input pump's register is discarded, a write to an output pump's register is
appended (R200). -/
def Proc.wv (p : Proc) (r : Reg) (v : Vec) : Proc :=
  if p.pops r then p
  else if p.appends r then
    { p.updPump (pumpNum r) (fun u => { u with pend := u.pend ++ [(u.pos.toNat, v)], pos := u.pos + 1 }) with
      v := Sparse.set p.v r.toNat v }
  else { p with v := Sparse.set p.v r.toNat v }

/-- Write a v register of the executing context. -/
def State.wv (s : State) (r : Reg) (v : Vec) : State := s.updProc (fun p => p.wv r v)

/-- A vector instruction: its pump faults, else its pops and then its effect and the next instruction. The effect is
given the state before the pops, whose `State.v` are the operands, and the state to change (R184). -/
def State.vector (s : State) (reads writes : List Reg) (f : State → State) : Out :=
  match s.pumpFault reads writes with
  | some e => .next (s.raise e)
  | none => .next (f (s.popAll reads)).next

/-! Lanes (R183). -/

/-- Lane i of width w. -/
def lane (v : Vec) (w i : Nat) : Nat := (v.extractLsb' (w * i) w).toNat

/-- The lanes of a register. -/
def lanes (v : Vec) (w : Nat) : List Nat := (List.range (512 / w)).map (lane v w)

/-- A number made of lanes of width w, lane 0 lowest. -/
def packNat (w : Nat) : List Nat → Nat
  | [] => 0
  | x :: r => x % 2 ^ w + 2 ^ w * packNat w r

/-- A register made of lanes. -/
def pack (w : Nat) (l : List Nat) : Vec := BitVec.ofNat 512 (packNat w l)

/-- A lane is enabled: the mask bit of its lowest byte is 1. -/
def enabled (m : Word) (w i : Nat) : Bool := m.getLsbD (w / 8 * i)

/-- The enabled lanes below a lane. -/
def enabledBelow (m : Word) (w i : Nat) : Nat := ((List.range i).filter (enabled m w)).length

/-- The results of a lane operation: disabled lanes keep their old value. -/
def mergeLanes (m : Word) (w : Nat) (old : Vec) (f : Nat → Nat) : Vec :=
  pack w ((List.range (512 / w)).map (fun i => if enabled m w i then f i else lane old w i))

/-- The flags of a lane operation: of the enabled lanes (R114). -/
def laneFlags (m : Word) (w : Nat) (f : Nat → FFlags) : FFlags :=
  (List.range (512 / w)).foldl (fun acc i => if enabled m w i then acc ||| f i else acc) 0

/-- An instruction that writes each enabled lane of vd (R185): `f i` is the lane's result and flags. -/
def State.perLane (s : State) (d : Reg) (reads : List Reg) (m : MReg) (w : Nat) (f : Nat → FRes) : Out :=
  s.vector reads [d] (fun t =>
    (t.wv d (mergeLanes (s.m m) w (t.proc.rv d) (fun i => (f i).1))).orFlags
      (laneFlags (s.m m) w (fun i => (f i).2)))

/-! Trees (R121). -/

/-- One level of the pairwise tree. -/
def treeLevel {α : Type} (f : α → α → α) : List α → List α
  | a :: b :: r => f a b :: treeLevel f r
  | l => l

/-- The levels of the tree over at most 2^n values. -/
def tree {α : Type} (f : α → α → α) : Nat → List α → List α
  | 0, l => l
  | n + 1, l => tree f n (treeLevel f l)

/-- The value of a tree over the lanes of a register: at most 64 of them. -/
def treeValue {α : Type} (f : α → α → α) (e : α) (l : List α) : α := (tree f 6 l).headD e

/-- A node of a float sum: the sum of two encodings rounded once, its flags ORed to those below (R121). -/
def sumNode (f : Fmt) (mode : RMode) (a b : FRes) : FRes :=
  let r := f.deliver mode (fsum mode [f.unpack a.1, f.unpack b.1])
  (r.1, a.2 ||| b.2 ||| r.2)

/-- A node of a float minimum or maximum. -/
def minmaxNode (f : Fmt) (isMax : Bool) (a b : FRes) : FRes :=
  let r := f.minmax isMax a.1 b.1
  (r.1, a.2 ||| b.2 ||| r.2)

end Sys2Proof.Machine
end

