-- ==== Sys2Proof/Machine/Vector.lean ====
section
/-! DEFINITION. Vector arithmetic, logic, compare, reduce, moves, conversions and microscaling (R185 to R190, R193 to
R195). -/

namespace Sys2Proof.Machine

/-- A lane result without flags. -/
def plain (x : Nat) : FRes := (x, 0)

/-- A two-operand lane operation: `i` on integer lanes, `f` on float values rounded per frm (R185). -/
def State.lane2 (s : State) (d a b : Reg) (m : MReg) (t : LaneTy) (i : Nat → Nat → Nat) (f : FVal → FVal → FVal) : Out :=
  let x := s.v a
  let y := s.v b
  s.perLane d [a, b] m (laneBits t) (fun j =>
    if t.isInt then plain (i (lane x (laneBits t) j) (lane y (laneBits t) j))
    else (fmtOf t).deliver s.mode
      (f ((fmtOf t).unpack (lane x (laneBits t) j)) ((fmtOf t).unpack (lane y (laneBits t) j))))

/-- A three-operand fused lane operation: a x b + d or (-a x b) + d (R185). -/
def State.laneFused (s : State) (d a b : Reg) (m : MReg) (t : LaneTy) (neg : Bool) : Out :=
  let x := s.v a
  let y := s.v b
  let z := s.v d
  s.perLane d [d, a, b] m (laneBits t) (fun j =>
    let f := fmtOf t
    let p := (f.unpack (lane x (laneBits t) j)).mul (f.unpack (lane y (laneBits t) j))
    f.deliver s.mode (fsum s.mode [if neg then p.negate else p, f.unpack (lane z (laneBits t) j)]))

/-- The lesser or greater of two integer lanes. -/
def intMinmax (t : LaneTy) (isMax : Bool) (x y : Nat) : Nat :=
  if isMax then (if intOf t x ≤ intOf t y then y else x) else if intOf t x ≤ intOf t y then x else y

/-- vmin and vmax. -/
def State.laneMinmax (s : State) (d a b : Reg) (m : MReg) (t : LaneTy) (isMax : Bool) : Out :=
  let x := s.v a
  let y := s.v b
  s.perLane d [a, b] m (laneBits t) (fun j =>
    if t.isInt then plain (intMinmax t isMax (lane x (laneBits t) j) (lane y (laneBits t) j))
    else (fmtOf t).minmax isMax (lane x (laneBits t) j) (lane y (laneBits t) j))

/-- vadd. -/
def execVadd (d a b : Reg) (m : MReg) (t : LaneTy) (s : State) : Out :=
  s.lane2 d a b m t (· + ·) (fun x y => fsum s.mode [x, y])
/-- vsub. -/
def execVsub (d a b : Reg) (m : MReg) (t : LaneTy) (s : State) : Out :=
  s.lane2 d a b m t (fun x y => x + 2 ^ laneBits t - y) (fun x y => fsum s.mode [x, y.negate])
/-- vmul. -/
def execVmul (d a b : Reg) (m : MReg) (t : LaneTy) (s : State) : Out := s.lane2 d a b m t (· * ·) FVal.mul
/-- vfma: the old vd lane is an operand. -/
def execVfma (d a b : Reg) (m : MReg) (t : LaneTy) (s : State) : Out := s.laneFused d a b m t false
/-- vfms. -/
def execVfms (d a b : Reg) (m : MReg) (t : LaneTy) (s : State) : Out := s.laneFused d a b m t true
/-- vmin. -/
def execVmin (d a b : Reg) (m : MReg) (t : LaneTy) (s : State) : Out := s.laneMinmax d a b m t false
/-- vmax. -/
def execVmax (d a b : Reg) (m : MReg) (t : LaneTy) (s : State) : Out := s.laneMinmax d a b m t true

/-! vdot (R186). -/

/-- The node format of a float vdot. -/
def dotFmt (t : LaneTy) : Fmt := if t = .f64 then fmtF64 else fmtF32

/-- The lane products of a float vdot; a disabled lane's product is -0. -/
def dotTerms (t : LaneTy) (m : Word) (x y : Vec) : List FVal :=
  (List.range (512 / laneBits t)).map (fun i =>
    if enabled m (laneBits t) i then
      ((fmtOf t).unpack (lane x (laneBits t) i)).mul ((fmtOf t).unpack (lane y (laneBits t) i))
    else .fin true 0 0)

/-- The level-1 nodes of a float vdot: two exact products added with one rounding. -/
def dotPairs (f : Fmt) (mode : RMode) : List FVal → List FRes
  | a :: b :: r => f.deliver mode (fsum mode [a, b]) :: dotPairs f mode r
  | _ => []

/-- The sum of an integer vdot, modulo 2^64. -/
def dotInt (t : LaneTy) (m : Word) (x y : Vec) : Int :=
  (List.range (512 / laneBits t)).foldl (fun acc i =>
    if enabled m (laneBits t) i then acc + intOf t (lane x (laneBits t) i) * intOf t (lane y (laneBits t) i) else acc) 0

/-- vdot. -/
def execVdot (d a b : Reg) (m : MReg) (t : LaneTy) (s : State) : Out :=
  let x := s.v a
  let y := s.v b
  s.vector [a, b] [] (fun z =>
    if t.isInt then z.wx d (BitVec.ofInt 64 (dotInt t (s.m m) x y))
    else
      let r := treeValue (sumNode (dotFmt t) s.mode) (0, 0)
        (dotPairs (dotFmt t) s.mode (dotTerms t (s.m m) x y))
      (z.wx d (BitVec.ofNat 64 r.1)).orFlags r.2)

/-! Bitwise forms (R187). -/

/-- A two-operand lane operation on bits. -/
def State.laneBitwise (s : State) (d a b : Reg) (m : MReg) (t : LaneTy) (f : Nat → Nat → Nat) : Out :=
  let x := s.v a
  let y := s.v b
  s.perLane d [a, b] m (laneBits t) (fun j => plain (f (lane x (laneBits t) j) (lane y (laneBits t) j)))

/-- vand. -/
def execVand (d a b : Reg) (m : MReg) (t : LaneTy) (s : State) : Out := s.laneBitwise d a b m t (· &&& ·)
/-- vor. -/
def execVor (d a b : Reg) (m : MReg) (t : LaneTy) (s : State) : Out := s.laneBitwise d a b m t (· ||| ·)
/-- vxor. -/
def execVxor (d a b : Reg) (m : MReg) (t : LaneTy) (s : State) : Out := s.laneBitwise d a b m t (· ^^^ ·)
/-- vandn: a and not b. -/
def execVandn (d a b : Reg) (m : MReg) (t : LaneTy) (s : State) : Out :=
  s.laneBitwise d a b m t (fun x y => x &&& (2 ^ laneBits t - 1 - y))
/-- vshl: by lane b mod w. -/
def execVshl (d a b : Reg) (m : MReg) (t : LaneTy) (s : State) : Out :=
  s.laneBitwise d a b m t (fun x y => x <<< (y % laneBits t))
/-- vshr: fills with zeros. -/
def execVshr (d a b : Reg) (m : MReg) (t : LaneTy) (s : State) : Out :=
  s.laneBitwise d a b m t (fun x y => x >>> (y % laneBits t))
/-- vsra: copies bit w - 1, whether the type is s or n. -/
def execVsra (d a b : Reg) (m : MReg) (t : LaneTy) (s : State) : Out :=
  s.laneBitwise d a b m t (fun x y => ((BitVec.ofNat (laneBits t) x).sshiftRight (y % laneBits t)).toNat)
/-- vsel: every lane is written, from va where its mask bit is 1 and from vb otherwise. -/
def execVsel (d a b : Reg) (m : MReg) (t : LaneTy) (s : State) : Out :=
  let x := s.v a
  let y := s.v b
  s.vector [a, b] [d] (fun z => z.wv d (mergeLanes (s.m m) (laneBits t) y (lane x (laneBits t))))

/-! One-operand forms. -/

/-- A one-operand lane operation on encodings. -/
def State.lane1 (s : State) (d a : Reg) (m : MReg) (t : LaneTy) (f : Nat → FRes) : Out :=
  let x := s.v a
  s.perLane d [a] m (laneBits t) (fun j => f (lane x (laneBits t) j))

/-- vabs: the magnitude modulo 2^w of an integer; the sign bit of a float cleared. -/
def execVabs (d a : Reg) (m : MReg) (t : LaneTy) (s : State) : Out :=
  s.lane1 d a m t (fun x => plain (if t.isInt then (intOf t x).natAbs else x % (fmtOf t).signBit))
/-- vneg: the negative modulo 2^w of an integer; the sign bit of a float inverted. -/
def execVneg (d a : Reg) (m : MReg) (t : LaneTy) (s : State) : Out :=
  s.lane1 d a m t (fun x => plain (if t.isInt then 2 ^ laneBits t - x else x ^^^ (fmtOf t).signBit))

/-- A special function of a float lane, rounded with RNE; an operand of zero sets DZ when `dz` (R120). -/
def State.special (s : State) (d a : Reg) (m : MReg) (t : LaneTy) (dz : Bool) (f : FVal → FVal) : Out :=
  s.lane1 d a m t (fun x =>
    let v := (fmtOf t).unpack x
    let r := (fmtOf t).deliver .rne (f v)
    (r.1, r.2 ||| flagIf dz (zeroDZ v)))

/-- vexp2. -/
def execVexp2 (d a : Reg) (m : MReg) (t : LaneTy) (s : State) : Out := s.special d a m t false FVal.exp2
/-- vlog2. -/
def execVlog2 (d a : Reg) (m : MReg) (t : LaneTy) (s : State) : Out := s.special d a m t true FVal.log2
/-- vrcp. -/
def execVrcp (d a : Reg) (m : MReg) (t : LaneTy) (s : State) : Out :=
  s.special d a m t true (fun v => FVal.div (fmtOf t).bits (.fin false 1 0) v)
/-- vrsq. -/
def execVrsq (d a : Reg) (m : MReg) (t : LaneTy) (s : State) : Out := s.special d a m t true FVal.rsqrt
/-- vsqrt. -/
def execVsqrt (d a : Reg) (m : MReg) (t : LaneTy) (s : State) : Out :=
  s.special d a m t false (FVal.sqrt (fmtOf t).bits)

/-- vrng: the top w bits of one output into each enabled lane, in ascending lane order (R188). -/
def execVrng (d : Reg) (m : MReg) (t : LaneTy) (s : State) : Out :=
  let w := laneBits t
  s.vector [] [d] (fun z =>
    (z.wv d (mergeLanes (s.m m) w (z.proc.rv d)
      (fun i => (s.draw (enabledBelow (s.m m) w i)).toNat / 2 ^ (64 - w)))).drawn (enabledBelow (s.m m) w (512 / w)))

/-! Compare and reduce (R189, R190). -/

/-- A comparison of two integers. -/
def FCmp.ints (c : FCmp) (x y : Int) : Bool :=
  match c with
  | .eq => decide (x = y)
  | .ne => decide (x ≠ y)
  | .lt => decide (x < y)
  | .le => decide (x ≤ y)

/-- The comparison of one lane. -/
def laneCmp (c : FCmp) (t : LaneTy) (x y : Nat) : Bool :=
  if t.isInt then c.ints (intOf t x) (intOf t y) else c.holds ((fmtOf t).unpack x) ((fmtOf t).unpack y)

/-- The flags of the comparison of one lane. -/
def laneCmpFlags (c : FCmp) (t : LaneTy) (x y : Nat) : FFlags :=
  if t.isInt then 0 else c.flags ((fmtOf t).unpack x) ((fmtOf t).unpack y)

/-- The mask a compare writes: all bits of an enabled lane's bytes hold its result, those of a disabled lane 0. -/
def cmpMask (c : FCmp) (t : LaneTy) (m : Word) (x y : Vec) : Word :=
  let w := laneBits t
  BitVec.ofNat 64 (packNat (w / 8) ((List.range (512 / w)).map (fun i =>
    if enabled m w i && laneCmp c t (lane x w i) (lane y w i) then 2 ^ (w / 8) - 1 else 0)))

/-- vcmp (R189). -/
def State.vcompare (s : State) (c : FCmp) (d : MReg) (a b : Reg) (m : MReg) (t : LaneTy) : Out :=
  let x := s.v a
  let y := s.v b
  s.vector [a, b] [] (fun z =>
    (z.wm d (cmpMask c t (s.m m) x y)).orFlags (laneFlags (s.m m) (laneBits t) (fun i =>
      laneCmpFlags c t (lane x (laneBits t) i) (lane y (laneBits t) i))))

/-- vcmp.eq. -/
def execVcmpEq (d : MReg) (a b : Reg) (m : MReg) (t : LaneTy) (s : State) : Out := s.vcompare .eq d a b m t
/-- vcmp.ne. -/
def execVcmpNe (d : MReg) (a b : Reg) (m : MReg) (t : LaneTy) (s : State) : Out := s.vcompare .ne d a b m t
/-- vcmp.lt. -/
def execVcmpLt (d : MReg) (a b : Reg) (m : MReg) (t : LaneTy) (s : State) : Out := s.vcompare .lt d a b m t
/-- vcmp.le. -/
def execVcmpLe (d : MReg) (a b : Reg) (m : MReg) (t : LaneTy) (s : State) : Out := s.vcompare .le d a b m t

/-- The lanes of a reduction, with the identity for a disabled lane. -/
def redLanes (t : LaneTy) (m : Word) (x : Vec) (ident : Nat) : List Nat :=
  (List.range (512 / laneBits t)).map (fun i => if enabled m (laneBits t) i then lane x (laneBits t) i else ident)

/-- A reduction over the enabled lanes: `i` and its identity on integer lanes, `f` and its identity on float lanes
(R190). -/
def State.reduce (s : State) (d a : Reg) (m : MReg) (t : LaneTy) (iIdent : Nat) (i : Nat → Nat → Nat) (fIdent : Nat)
    (f : FRes → FRes → FRes) : Out :=
  let x := s.v a
  s.vector [a] [] (fun z =>
    if t.isInt then z.wx d (extendTo t (treeValue i 0 (redLanes t (s.m m) x iIdent)))
    else
      let r := treeValue f (0, 0) ((redLanes t (s.m m) x fIdent).map plain)
      (z.wx d (BitVec.ofNat 64 r.1)).orFlags r.2)

/-- vred.sum: the identity is -0, or 0 on integer lanes. -/
def execVredSum (d a : Reg) (m : MReg) (t : LaneTy) (s : State) : Out :=
  s.reduce d a m t 0 (fun x y => (x + y) % 2 ^ laneBits t) (fmtOf t).signBit (sumNode (fmtOf t) s.mode)
/-- vred.min: the identity is +infinity, or the type's largest value. -/
def execVredMin (d a : Reg) (m : MReg) (t : LaneTy) (s : State) : Out :=
  s.reduce d a m t (encInt (laneBits t) (intHi t)) (intMinmax t false) (fmtOf t).infBits (minmaxNode (fmtOf t) false)
/-- vred.max: the identity is -infinity, or the type's smallest value. -/
def execVredMax (d a : Reg) (m : MReg) (t : LaneTy) (s : State) : Out :=
  s.reduce d a m t (encInt (laneBits t) (intLo t)) (intMinmax t true)
    ((fmtOf t).signed true (fmtOf t).infBits) (minmaxNode (fmtOf t) true)

/-! Moves and permutes (R193). -/

/-- vbcast. -/
def execVbcast (d a : Reg) (m : MReg) (t : LaneTy) (s : State) : Out :=
  s.perLane d [] m (laneBits t) (fun _ => plain (s.x a).toNat)
/-- vext. -/
def execVext (d a b : Reg) (t : LaneTy) (s : State) : Out :=
  let x := s.v a
  s.vector [a] [] (fun z =>
    z.wx d (extendTo t (lane x (laneBits t) ((s.x b).toNat % (512 / laneBits t)))))
/-- vins: one lane of vd, if it is enabled. -/
def execVins (d a b : Reg) (m : MReg) (t : LaneTy) (s : State) : Out :=
  s.vector [] [d] (fun z =>
    z.wv d (pack (laneBits t) ((List.range (512 / laneBits t)).map (fun i =>
      if i = (s.x b).toNat % (512 / laneBits t) && enabled (s.m m) (laneBits t) i then (s.x a).toNat
      else lane (z.proc.rv d) (laneBits t) i))))
/-- vperm: indexes are read unsigned, modulo the number of lanes. -/
def execVperm (d a b : Reg) (m : MReg) (t : LaneTy) (s : State) : Out :=
  let x := s.v a
  let y := s.v b
  s.perLane d [a, b] m (laneBits t) (fun i =>
    plain (lane x (laneBits t) (lane y (laneBits t) i % (512 / laneBits t))))

/-! Conversions and microscaling (R194, R195). -/

/-- vcvt: positions of the larger width, the result in the low bits of its position. -/
def execVcvt (d a : Reg) (m : MReg) (t f : LaneTy) (r : Bool) (s : State) : Out :=
  let w := max (laneBits t) (laneBits f)
  let x := s.v a
  s.vector [a] [d] (fun z =>
    let res := fun i => convert s.mode t f r ((s.draw (enabledBelow (s.m m) w i)).toNat / 2 ^ 32) (lane x w i)
    ((z.wv d (mergeLanes (s.m m) w (z.proc.rv d) (fun i => (res i).1))).orFlags
      (laneFlags (s.m m) w (fun i => (res i).2))).drawn (if r then enabledBelow (s.m m) w (512 / w) else 0))

/-- The emax of an MX type (R124). -/
def mxEmax (t : LaneTy) : Int :=
  match t with
  | .e4m3 => 8
  | .e5m2 => 15
  | _ => 2

/-- The greatest finite magnitude among FP32 encodings; NaNs and infinities do not count (R126). -/
def maxMag (l : List Nat) : Nat :=
  l.foldl (fun acc x => if x % 2 ^ 31 < fmtF32.infBits then max acc (x % 2 ^ 31) else acc) 0

/-- The exponent s of an MX block with largest magnitude given as FP32 bits (R124). -/
def mxShift (t : LaneTy) (mag : Nat) : Int :=
  match fmtF32.unpack mag with
  | .fin _ m e => max (-127) (min 127 (leadOf m e - mxEmax t))
  | _ => 0

/-- A value with its exponent moved. -/
def FVal.scaleBy (k : Int) : FVal → FVal
  | .fin s m e => .fin s m (e + k)
  | v => v

/-- The elements of an MX block with their flags, and its scale byte (R124). -/
def mxBlock (t : LaneTy) (l : List Nat) : List FRes × Nat :=
  if l.any (fun x => decide (fmtF32.infBits ≤ x % 2 ^ 31)) then (l.map (fun _ => (0, flagNV)), 0xFF)
  else if maxMag l = 0 then (l.map (fun _ => (0, 0)), 0x7F)
  else
    (l.map (fun x => (fmtOf t).deliver .rne ((fmtF32.unpack x).scaleBy (-mxShift t (maxMag l)))),
      (mxShift t (maxMag l) + 127).toNat)

/-- The register form of an MX block (R107). -/
def mxReg (t : LaneTy) (elems : List Nat) (scale : Nat) : Vec :=
  BitVec.ofNat 512 (packNat (laneBits t) elems + scale * 2 ^ 256)

/-- amax after a block (R126). -/
def mxAmax (old : Word) (l : List Nat) : Word :=
  (if old.getLsbD 63 || l.any (fun x => decide (fmtF32.infBits < x % 2 ^ 31)) then 0x8000000000000000 else 0)
    ||| BitVec.ofNat 64 (max (old.toNat % 2 ^ 31) (maxMag l))

/-- vmxq. -/
def execVmxq (d a : Reg) (t : LaneTy) (s : State) : Out :=
  let l := lanes (s.v a) 32 ++ lanes (s.v (a + 1)) 32
  let b := mxBlock t l
  s.vector [a, a + 1] [d] (fun z =>
    ((z.wv d (mxReg t (b.1.map Prod.fst) b.2)).orFlags (b.1.foldl (fun acc r => acc ||| r.2) 0)).updProc
      (fun p => { p with amax := mxAmax p.amax l }))

/-- The 32 elements of an MX register block (R107). -/
def mxElems (t : LaneTy) (v : Vec) : List Nat := (List.range 32).map (lane v (laneBits t))

/-- The scale byte of an MX register block. -/
def mxScale (v : Vec) : Nat := lane v 8 32

/-- One lane of vmxd (R125). -/
def mxExpand (t : LaneTy) (scale x : Nat) : FRes :=
  if scale = 0xFF then (fmtF32.canon, 0)
  else fmtF32.deliver .rne (((fmtOf t).unpack x).scaleBy ((scale : Int) - 127))

/-- vmxd. -/
def execVmxd (d b : Reg) (t : LaneTy) (s : State) : Out :=
  let v := s.v b
  let r := (mxElems t v).map (mxExpand t (mxScale v))
  s.vector [b] [d, d + 1] (fun z =>
    ((z.wv d (pack 32 ((r.take 16).map Prod.fst))).wv (d + 1) (pack 32 ((r.drop 16).map Prod.fst))).orFlags
      (r.foldl (fun acc q => acc ||| q.2) 0))

end Sys2Proof.Machine
end

