-- ==== Sys2Proof/Machine/Matrix.lean ====
section
/-! DEFINITION. The matrix engine: the commands at issue and their execution (R203 to R213, R122 to R124). -/

namespace Sys2Proof.Machine

/-! Accumulators. -/

/-- The status of an accumulator. -/
def VTile.acc (t : VTile) (c : BitVec 3) : AccStatus := Sparse.get t.im.accs c.toNat

/-- The vtile with an accumulator's status changed. -/
def VTile.updAcc (t : VTile) (c : BitVec 3) (f : AccStatus → AccStatus) : VTile :=
  t.updIm (fun m => { m with accs := Sparse.upd m.accs c.toNat f })

/-- A command naming an accumulator is queued or executing. -/
def VTile.queued (t : VTile) (c : BitVec 3) : Bool := t.im.mats.any (fun e => e.acc == c)

/-- An accumulator is in flight: a command names it, unless slotwr wrote the bit (R93, R204). -/
def VTile.inFlight (t : VTile) (c : BitVec 3) : Bool := (t.acc c).flight.getD (t.queued c)

/-- The in-flight bit of an accumulator follows its commands. -/
def AccStatus.follow (a : AccStatus) : AccStatus := { a with flight := none }

/-- An accumulator is owned by a slot. -/
def VTile.owns (t : VTile) (q : Nat) (c : BitVec 3) : Bool := (t.acc c).valid && decide ((t.acc c).owner.toNat = q)

/-- ACC_OWNER: the accumulator, its owner, and whether any slot owns it (R81). -/
def VTile.ownerFlt (t : VTile) (c : BitVec 3) : Flt :=
  { code := codeAccOwner,
    aux := BitVec.ofNat 64 (c.toNat + (if (t.acc c).valid then (t.acc c).owner.toNat * 16 + 128 else 0)) }

/-- An instruction on an accumulator the issuer owns (R204, R206). -/
def State.owning (s : State) (c : BitVec 3) (f : State → State) : State :=
  if s.here.owns s.cur.who c then f s else s.raise (s.here.ownerFlt c)

/-- A command joins the matrix queue (R203). -/
def State.queueMat (s : State) (c : BitVec 3) (h : AccShape) (op : MatOp) : State :=
  s.updHere (fun t => (t.updAcc c AccStatus.follow).updIm (fun m =>
    { m with mats := m.mats ++ [{ acc := c, slot := s.slot, shape := h, op := op }] }))

/-- An accumulator is freed, its contents discarded (R206). -/
def VTile.freeAcc (t : VTile) (q : Nat) (c : BitVec 3) : VTile :=
  (t.updAcc c (fun a => { a with valid := false })).updProc q
    (fun p => { p with claimed := p.claimed &&& ~~~ slotBit c })

/-- mclaim (R205). -/
def execMclaim (c : BitVec 3) (h : AccShape) (s : State) : Out :=
  .next (s.forProcess (.mclaim c h)
    (if !(s.here.acc c).valid then
      (((s.updHere (fun t => t.updAcc c (fun a => { a with valid := true, owner := s.slot, shape := h }))).updProc
        (fun p => { p with claimed := p.claimed ||| slotBit c })).queueMat c h .claimZero).next
    else if !s.here.owns s.cur.who c then s.raise (s.here.ownerFlt c)
    else if (s.here.acc c).shape = h then s.next
    else ((s.updHere (fun t => t.updAcc c (fun a => { a with shape := h }))).queueMat c h .claimZero).next))

/-- mzero (R206). -/
def execMzero (c : BitVec 3) (s : State) : Out :=
  .next (s.forProcess (.mzero c) (s.owning c (fun t => (t.queueMat c (t.here.acc c).shape .zero).next)))

/-- The code of a shape (R204). -/
def shapeCode : AccShape → Nat
  | .f32 => 0
  | .s32 => 1
  | .f64 => 2

/-- The status word of R204; `mine` is set for the owner. -/
def VTile.accWord (t : VTile) (c : BitVec 3) (mine : Bool) : Word :=
  let a := t.acc c
  BitVec.ofNat 64 ((if a.valid then 1 else 0) + (if a.dirty then 2 else 0) + (if t.inFlight c then 4 else 0)
    + shapeCode a.shape * 8 + a.owner.toNat * 32 + a.flags.toNat * 256 + (if mine then 8192 else 0))

/-- mstat (R207). -/
def execMstat (c : BitVec 3) (d : Reg) (s : State) : Out :=
  .next (s.forProcess (.mstat c d) (s.put d (s.here.accWord c (s.here.owns s.cur.who c))))

/-! Loads and stores of accumulators. -/

/-- Rows of a shape, each of 128 bytes (R212). -/
def shapeRows : AccShape → Nat
  | .f64 => 16
  | _ => 32

/-- An access of the matrix engine: alignment 64, in the tile store (R65). -/
def matAccess (g : GReg) (r : Reg) (operand size : Nat) (wr : Bool) : Access :=
  { g := g, reg := r, operand := operand, size := size, perms := (if wr then permS else permL) ||| permE, align := 64,
    rd := !wr, wr := wr, storeOnly := true }

/-- mld (R212). -/
def execMld (c : BitVec 3) (a b : Reg) (s : State) : Out :=
  .next (s.forProcess (.mld c a b) (s.owning c (fun t =>
    let h := (t.here.acc c).shape
    let pitch := (t.x b).toNat
    if 65536 ≤ pitch || pitch % 64 ≠ 0 || pitch < 128 then t.raise (engDesc 0)
    else t.withAccess (matAccess (t.g a) a 0 ((shapeRows h - 1) * pitch + 128) false)
      (fun addr u => (u.queueMat c h (.load addr pitch)).next))))

/-- An output type of mst has a scale byte per row. -/
def mstMx (t : BitVec 5) : Bool := decide (16 ≤ t.toNat)

/-- The format of the elements a float mst writes (R213). -/
def mstFmt (t : BitVec 5) : Fmt :=
  match t.toNat with
  | 8 => fmtF16
  | 9 => fmtBf16
  | 11 => fmtF64
  | 12 | 16 => fmtE4m3
  | 13 | 17 => fmtE5m2
  | 18 => fmtE2m1
  | _ => fmtF32

/-- Bits of an element mst writes. -/
def mstBits (t : BitVec 5) : Nat := if t.toNat = 2 then 32 else (mstFmt t).width

/-- An accumulator's shape accepts an output type (R213). -/
def mstAccepts (h : AccShape) (t : BitVec 5) : Bool :=
  match h with
  | .f32 => [8, 9, 10, 12, 13, 16, 17, 18].contains t.toNat
  | .s32 => [2, 10].contains t.toNat
  | .f64 => [10, 11].contains t.toNat

/-- Elements of a row of a shape. -/
def shapeCols : AccShape → Nat
  | .f64 => 16
  | _ => 32

/-- Bytes of an output row (R213). -/
def mstRow (h : AccShape) (t : BitVec 5) : Nat := shapeCols h * mstBits t / 8

/-- Bytes of the footprint of mst (R213). -/
def mstSpan (h : AccShape) (t : BitVec 5) (pitch : Nat) : Nat :=
  if mstMx t then 32 * pitch + 32 else (shapeRows h - 1) * pitch + mstRow h t

/-- A scale register is refused: not finite, zero, or with high bits (R213). -/
def badScale (x : Word) : Bool :=
  decide (2 ^ 32 ≤ x.toNat) || decide (x.toNat % 2 ^ 31 = 0) || decide (fmtF32.infBits ≤ x.toNat % 2 ^ 31)

/-- mst (R213). -/
def execMst (c : BitVec 3) (a b x : Reg) (t : BitVec 5) (s : State) : Out :=
  .next (s.forProcess (.mst c a b x t) (s.owning c (fun z =>
    let h := (z.here.acc c).shape
    let pitch := (z.x b).toNat
    if !mstAccepts h t || (mstScaled t && badScale (z.x x)) || 65536 ≤ pitch || pitch % 64 ≠ 0 || pitch < mstRow h t then
      z.raise (engDesc 0)
    else z.withAccess (matAccess (z.g a) a 0 (mstSpan h t pitch) true)
      (fun addr u => (u.queueMat c h (.store addr pitch t ((z.x x).setWidth 32))).next))))

/-! Operands of mma (R208 to R210). -/

/-- What an operand pair says: the accumulator's shape, K, the group, the element types, and whether they carry block
scales. -/
structure MmaType where
  shape : AccShape := .f32
  k : Nat := 0
  group : Nat := 1
  a : LaneTy := .f32
  b : LaneTy := .f32
  mx : Bool := false
  deriving DecidableEq, Repr

/-- The operand pairs of R145 with their dimensions (R209, R122). -/
def mmaType (t : BitVec 5) : MmaType :=
  match t.toNat with
  | 0x00 => { k := 64, group := 16, a := .bf16, b := .bf16 }
  | 0x01 => { k := 64, group := 16, a := .f16, b := .f16 }
  | 0x02 => { k := 128, group := 32, a := .e4m3, b := .e4m3 }
  | 0x03 => { k := 128, group := 32, a := .e4m3, b := .e5m2 }
  | 0x04 => { k := 128, group := 32, a := .e5m2, b := .e4m3 }
  | 0x05 => { k := 128, group := 32, a := .e5m2, b := .e5m2 }
  | 0x06 => { k := 128, group := 32, a := .e4m3, b := .e4m3, mx := true }
  | 0x07 => { k := 128, group := 32, a := .e4m3, b := .e5m2, mx := true }
  | 0x08 => { k := 128, group := 32, a := .e5m2, b := .e4m3, mx := true }
  | 0x09 => { k := 128, group := 32, a := .e5m2, b := .e5m2, mx := true }
  | 0x0A => { k := 256, group := 64, a := .e2m1, b := .e2m1, mx := true }
  | 0x0B => { shape := .s32, k := 128, group := 128, a := .s8, b := .s8 }
  | 0x0C => { shape := .s32, k := 128, group := 128, a := .s8, b := .n8 }
  | 0x0D => { shape := .s32, k := 128, group := 128, a := .n8, b := .s8 }
  | 0x0E => { shape := .s32, k := 128, group := 128, a := .n8, b := .n8 }
  | 0x0F => { k := 16, group := 4, a := .f32, b := .f32 }
  | _ => { shape := .f64, k := 16, group := 1, a := .f64, b := .f64 }

/-- How an operand is stored: cursor, pitch, rotation code, rows, bytes of a row, whether transposed, and bytes of its
scale array. -/
structure MatOperand where
  base : Nat := 0
  pitch : Nat := 0
  rot : Nat := 0
  rows : Nat := 0
  row : Nat := 0
  trans : Bool := false
  scale : Nat := 0
  deriving DecidableEq, Repr

/-- Rows and columns of a result: 32, or 16 for f64. -/
def mmaDim (m : MmaType) : Nat := if m.shape = .f64 then 16 else 32

/-- An operand with `n` matrix rows of `k` elements (A), or the other way round (B): stored by rows unless transposed. -/
def matOperand (base pitch rot n k : Nat) (trans : Bool) (t : LaneTy) (mx : Bool) : MatOperand :=
  { base := base, pitch := pitch, rot := rot, rows := if trans then k else n,
    row := (if trans then n else k) * laneBits t / 8, trans := trans, scale := if mx then n * k / 32 else 0 }

/-- Operand A of a descriptor (R208, R209). -/
def operandA (m : MmaType) (base : Nat) (x : Word) : MatOperand :=
  matOperand base (x.toNat % 65536) (x.toNat / 2 ^ 32 % 16) (mmaDim m) m.k (x.getLsbD 40) m.a m.mx

/-- Operand B of a descriptor. -/
def operandB (m : MmaType) (base : Nat) (x : Word) : MatOperand :=
  matOperand base (x.toNat / 65536 % 65536) (x.toNat / 2 ^ 36 % 16) m.k (mmaDim m) (x.getLsbD 41) m.b m.mx

/-- The pitch rules of R208. -/
def MatOperand.pitchOk (o : MatOperand) : Bool :=
  if o.rot = 0 then decide (o.pitch % 64 = 0) && decide (o.row ≤ o.pitch)
  else decide (o.pitch % 512 = 0) && decide (512 ≤ o.pitch)

/-- Bytes of the footprint of an operand (R210). -/
def MatOperand.span (o : MatOperand) : Nat :=
  max ((o.rows - 1) * o.pitch + (if o.rot = 0 then o.row else 512)) (if o.scale = 0 then 0 else o.rows * o.pitch + o.scale)

/-- The address of a byte of a row (R210). -/
def MatOperand.addr (o : MatOperand) (q off : Nat) : Nat :=
  if o.rot = 0 then o.base + q * o.pitch + off
  else o.base + q * o.pitch + 16 * ((off / 16 + o.rot * q) % 32) + off % 16

/-- mma (R211). -/
def execMma (c : BitVec 3) (a b x : Reg) (t : BitVec 5) (s : State) : Out :=
  .next (s.forProcess (.mma c a b x t) (s.owning c (fun z =>
    let m := mmaType t
    let w := z.x x
    let oa := operandA m 0 w
    let ob := operandB m 0 w
    if 2 ^ 42 ≤ w.toNat || m.shape ≠ (z.here.acc c).shape || !oa.pitchOk || !ob.pitchOk then z.raise (engDesc 0)
    else z.withAccess (matAccess (z.g a) a 0 oa.span false) (fun pa u =>
      u.withAccess (matAccess (z.g b) b 1 ob.span false) (fun pb v =>
        (v.queueMat c m.shape (.mma pa pb w t)).next)))))

/-! Execution (R211 to R213). -/

/-- A number of `n` bytes in the tile store. -/
def VTile.storeNum (t : VTile) (a n : Nat) : Nat := ofBytes (Memory.read t.im.store a n)

/-- Element `i` of row `q` of an operand. -/
def VTile.matElem (v : VTile) (o : MatOperand) (t : LaneTy) (q i : Nat) : Nat :=
  if laneBits t = 4 then (v.storeNum (o.addr q (i / 2)) 1 / (if i % 2 = 0 then 1 else 16)) % 16
  else v.storeNum (o.addr q (i * (laneBits t / 8))) (laneBits t / 8)

/-- The element of an operand at row r and column c of its matrix. -/
def VTile.matAt (v : VTile) (o : MatOperand) (t : LaneTy) (r c : Nat) : Nat :=
  if o.trans then v.matElem o t c r else v.matElem o t r c

/-- The value of an element with its block's scale; a scale of 0xFF makes a quiet NaN (R107, R123). -/
def scaledVal (x : FVal) (scale : Nat) : FVal := if scale = 0xFF then .nan false else x.scaleBy ((scale : Int) - 127)

/-- A byte of the scale array of an operand (R210). -/
def VTile.scaleAt (v : VTile) (o : MatOperand) (n : Nat) : Nat := v.storeNum (o.base + o.rows * o.pitch + n) 1

/-- A value of A: row i, index k. -/
def VTile.aVal (v : VTile) (m : MmaType) (o : MatOperand) (i k : Nat) : FVal :=
  let x := (fmtOf m.a).unpack (v.matAt o m.a i k)
  if m.mx then scaledVal x (v.scaleAt o (i * (m.k / 32) + k / 32)) else x

/-- A value of B: index k, column j. -/
def VTile.bVal (v : VTile) (m : MmaType) (o : MatOperand) (k j : Nat) : FVal :=
  let x := (fmtOf m.b).unpack (v.matAt o m.b k j)
  if m.mx then scaledVal x (v.scaleAt o (k / 32 * 32 + j)) else x

/-- The accumulator as a term of a group: a NaN it holds sets no flag (R122). -/
def accTerm (f : Fmt) (x : Nat) : FVal :=
  match f.unpack x with
  | .nan _ => .nan false
  | v => v

/-- The groups of one element in ascending order (R122). -/
def mmaGroups (f : Fmt) (g : Nat) (term : Nat → FVal) : Nat → Nat → FRes → FRes
  | 0, _, r => r
  | n + 1, k, r =>
    let z := f.deliver .rne (fsum .rne (accTerm f r.1 :: (List.range g).map (fun i => term (k + i))))
    mmaGroups f g term n (k + g) (z.1, r.2 ||| z.2)

/-- Bytes of an accumulator element. -/
def accSize : AccShape → Nat
  | .f64 => 8
  | _ => 4

/-- The place of an accumulator element in the accumulators' memory. -/
def accPlace (c : BitVec 3) (h : AccShape) (i j : Nat) : Nat := c.toNat * 4096 + i * 128 + j * accSize h

/-- An accumulator element. -/
def VTile.accAt (v : VTile) (c : BitVec 3) (h : AccShape) (i j : Nat) : Nat :=
  ofBytes (Memory.read v.im.accMem (accPlace c h i j) (accSize h))

/-- The new value and flags of an element of an mma. -/
def VTile.mmaElem (v : VTile) (c : BitVec 3) (m : MmaType) (oa ob : MatOperand) (i j : Nat) : FRes :=
  if m.shape = .s32 then
    (encInt 32 ((List.range m.k).foldl (fun acc k =>
      acc + intOf m.a (v.matAt oa m.a i k) * intOf m.b (v.matAt ob m.b k j)) ((v.accAt c m.shape i j : Nat) : Int)), 0)
  else
    mmaGroups (if m.shape = .f64 then fmtF64 else fmtF32) m.group
      (fun k => (v.aVal m oa i k).mul (v.bVal m ob k j)) (m.k / m.group) 0 (v.accAt c m.shape i j, 0)

/-- The cells of a matrix of `n` rows and columns, row by row. -/
def cells (n : Nat) : List (Nat × Nat) := (List.range n).flatMap (fun i => (List.range n).map (fun j => (i, j)))

/-- An accumulator written as a whole with its flags ORed and dirty set or cleared (R203). -/
def VTile.writeAcc (t : VTile) (c : BitVec 3) (h : AccShape) (r : List ((Nat × Nat) × FRes)) : VTile :=
  t.updIm (fun m => { m with
    accMem := r.foldl (fun am e => Memory.write am (accPlace c h e.1.1 e.1.2) (toBytes (accSize h) e.2.1)) m.accMem })

/-- The flags of a list of results. -/
def orAll (r : List FRes) : FFlags := r.foldl (fun acc e => acc ||| e.2) 0

/-- mma at execution. -/
def VTile.runMma (v : VTile) (c : BitVec 3) (pa pb : Nat) (w : Word) (t : BitVec 5) : VTile :=
  let m := mmaType t
  let r := (cells (mmaDim m)).map (fun e =>
    (e, v.mmaElem c m (operandA m pa w) (operandB m pb w) e.1 e.2))
  (v.writeAcc c m.shape r).updAcc c (fun a => { a with dirty := true, flags := a.flags ||| orAll (r.map Prod.snd) })

/-- mld at execution. -/
def VTile.runMld (v : VTile) (c : BitVec 3) (h : AccShape) (base pitch : Nat) : VTile :=
  (v.updIm (fun m => { m with
    accMem := (List.range (shapeRows h)).foldl (fun am i =>
      Memory.write am (c.toNat * 4096 + i * 128) (Memory.read m.store (base + i * pitch) 128)) m.accMem })).updAcc c
    (fun a => { a with dirty := true, flags := 0 })

/-- A zeroing command at execution: mzero sets dirty, that of mclaim clears it (R204 to R206). -/
def VTile.runZero (v : VTile) (c : BitVec 3) (dirty : Bool) : VTile :=
  (v.updIm (fun m => { m with accMem := Memory.clear m.accMem (c.toNat * 4096) 4096 })).updAcc c
    (fun a => { a with dirty := dirty, flags := 0 })

/-- The value of an accumulator element as mst converts it. -/
def VTile.accVal (v : VTile) (c : BitVec 3) (h : AccShape) (i j : Nat) : FVal :=
  match h with
  | .f32 => fmtF32.unpack (v.accAt c h i j)
  | .s32 => intVal (BitVec.ofNat 32 (v.accAt c h i j)).toInt
  | .f64 => fmtF64.unpack (v.accAt c h i j)

/-- The leading exponent of a finite nonzero value, the greater of it and another. -/
def maxLead : Option Int → FVal → Option Int
  | o, .fin _ m e => if m = 0 then o else some (match o with | some l => max l (leadOf m e) | none => leadOf m e)
  | o, _ => o

/-- A block of exact values quantised by the rule of R124: elements with flags, and the scale byte. -/
def mxValues (f : Fmt) (emax : Int) (l : List FVal) : List FRes × Nat :=
  if l.any (fun v => v.isNan || v.isInf false || v.isInf true) then (l.map (fun _ => (0, flagNV)), 0xFF)
  else
    match l.foldl maxLead none with
    | none => (l.map (fun _ => (0, 0)), 0x7F)
    | some lead =>
      let k := max (-127) (min 127 (lead - emax))
      (l.map (fun v => f.deliver .rne (v.scaleBy (-k))), (k + 127).toNat)

/-- The emax of an MX output. -/
def mstEmax (t : BitVec 5) : Int := if t.toNat = 16 then 8 else if t.toNat = 17 then 15 else 2

/-- The bytes of a row of elements. -/
def rowBytes (w : Nat) (l : List Nat) : List Byte := toBytes (l.length * w / 8) (packNat w l)

/-- Raw copies write the bits unchanged. -/
def mstRaw (h : AccShape) (t : BitVec 5) : Bool :=
  (decide (h = .f32) && decide (t.toNat = 10)) || (decide (h = .s32) && decide (t.toNat = 2))
    || (decide (h = .f64) && decide (t.toNat = 11))

/-- One row as mst writes it: elements with flags, and the scale byte of an MX type. -/
def VTile.mstElems (v : VTile) (c : BitVec 3) (h : AccShape) (t : BitVec 5) (scale : BitVec 32) (i : Nat) :
    List FRes × Nat :=
  let vals := (List.range (shapeCols h)).map (fun j =>
    if mstScaled t then (v.accVal c h i j).mul (fmtF32.unpack scale.toNat) else v.accVal c h i j)
  if mstRaw h t then ((List.range (shapeCols h)).map (fun j => (v.accAt c h i j, 0)), 0)
  else if mstMx t then mxValues (mstFmt t) (mstEmax t) vals
  else (vals.map ((mstFmt t).deliver .rne), 0)

/-- Bytes written to the tile store, their units' tags cleared. -/
def VTile.storeBytes (t : VTile) (a : Nat) : List Byte → VTile
  | [] => t
  | b :: r => (t.storeByte a b).storeBytes (a + 1) r

/-- One row of mst. -/
def VTile.mstRowOut (v : VTile) (c : BitVec 3) (h : AccShape) (base pitch : Nat) (t : BitVec 5) (scale : BitVec 32)
    (i : Nat) : VTile :=
  let r := v.mstElems c h t scale i
  let u := (v.storeBytes (base + i * pitch) (rowBytes (mstBits t) (r.1.map Prod.fst))).updAcc c
    (fun a => { a with flags := a.flags ||| orAll r.1 })
  if mstMx t then u.storeBytes (base + 32 * pitch + i) [BitVec.ofNat 8 r.2] else u

/-- mst at execution. -/
def VTile.runMst (v : VTile) (c : BitVec 3) (h : AccShape) (base pitch : Nat) (t : BitVec 5) (scale : BitVec 32) :
    VTile :=
  ((List.range (shapeRows h)).foldl (fun u i => u.mstRowOut c h base pitch t scale i) v).updAcc c
    (fun a => { a with dirty := false })

/-- The effect of a command at its completion. -/
def VTile.runMat (v : VTile) (e : MatCmd) : VTile :=
  match e.op with
  | .zero => v.runZero e.acc true
  | .claimZero => v.runZero e.acc false
  | .load base pitch => v.runMld e.acc e.shape base pitch
  | .store base pitch t scale => v.runMst e.acc e.shape base pitch t scale
  | .mma pa pb w t => v.runMma e.acc pa pb w t

end Sys2Proof.Machine
end

