-- ==== Sys2Proof/Machine/Copy.lean ====
section
/-! DEFINITION. The copy engine at issue: copy ids, the queue, descriptors and the checks of each command (R214 to
R221). -/

namespace Sys2Proof.Machine

/-- A copy is one of the process in a slot: not one that a kill of the EXITED slot left behind (R22). -/
def Copy.ofSlot (c : Copy) (q : Nat) : Bool := decide (c.kind ≠ .none) && decide (c.owner.toNat = q) && !c.loose

/-- A slot's copy with an id is outstanding (R223). -/
def VTile.copyOut (t : VTile) (q : Nat) (id : BitVec 16) : Bool :=
  t.im.copies.any (fun e => e.2.ofSlot q && e.2.id == id)

/-- The counter stepped past every id an outstanding copy of the slot holds; at most 16 are (R214). -/
def VTile.freeId (t : VTile) (q : Nat) (id : BitVec 16) : Nat → BitVec 16
  | 0 => id
  | n + 1 => if t.copyOut q id then t.freeId q (id + 1) n else id

/-- The copy id the next copy of a context takes. -/
def State.copyId (s : State) : BitVec 16 := s.here.freeId s.cur.who s.proc.nextCid 16

/-- The id written to gd and to cpid, the counter moved on, and on to the next instruction (R214). -/
def State.putCopyId (s : State) (d : Reg) (id : BitVec 16) : State :=
  (s.updProc (fun p => { p with nextCid := id + 1, cpid := id })).put d (id.setWidth 64)

/-- The first empty entry of the copy queue. -/
def freeEntry (c : Sparse Copy) : Nat := ((List.range 16).find? (fun e => (Sparse.get c e).kind == .none)).getD 16

/-- A command joins the copy queue in issue order. -/
def VTile.queueCopy (t : VTile) (c : Copy) : VTile :=
  { t with
    im := { t.im with copies := Sparse.set t.im.copies (freeEntry t.im.copies) { c with order := t.copyOrder } }
    copyOrder := t.copyOrder + 1 }

/-- A copy is issued: queued, and its id written (R214). -/
def State.issueCopy (s : State) (d : Reg) (c : Copy) : State :=
  (s.updHere (fun t => t.queueCopy { c with id := s.copyId, owner := s.slot })).putCopyId d s.copyId

/-- An engine access of a copy operand; page rights are checked as the engine reaches each element (R71). -/
def copyAccess (g : GReg) (r : Reg) (operand : Nat) (off : Int) (size align : Nat) (perms : BitVec 5) : Access :=
  { g := g, reg := r, operand := operand, off := off, size := size, align := align, perms := perms ||| permE,
    pages := false }

/-- cpy (R216). -/
def execCpy (d a b c : Reg) (s : State) : Out :=
  .next (s.forProcess (.cpy d a b c)
    (let len := (s.x c).toNat
     if 0x40000000 < len || len % 8 ≠ 0 then s.raise (engDesc 0)
     else s.withAccess (copyAccess (s.g a) a 0 0 len 8 permS) (fun dst t =>
       t.withAccess (copyAccess (s.g b) b 1 0 len 8 permL) (fun src u =>
         if len = 0 then u.putCopyId d u.copyId
         else u.issueCopy d {
           kind := .cpy, src := BitVec.ofNat 32 src, dst := BitVec.ofNat 32 dst, lend := BitVec.ofNat 32 len,
           total := (len + 63) / 64 }))))

/-! Descriptors (R217). -/

/-- A little-endian number inside a list of bytes. -/
def numAt (l : List Byte) (off n : Nat) : Nat := ofBytes ((l.drop off).take n)

/-- The count of a dimension. -/
def descCount (l : List Byte) (d : Nat) : Nat := numAt l (0x10 + 4 * d) 4
/-- The source stride of a dimension. -/
def descSstr (l : List Byte) (d : Nat) : Int := (BitVec.ofNat 32 (numAt l (0x30 + 4 * d) 4)).toInt
/-- The destination stride of a dimension. -/
def descDstr (l : List Byte) (d : Nat) : Int := (BitVec.ofNat 32 (numAt l (0x50 + 4 * d) 4)).toInt
/-- Dimensions used. -/
def descNd (l : List Byte) : Nat := numAt l 0 8 / 8 % 16
/-- Bytes of an element. -/
def descEsz (l : List Byte) : Nat := 2 ^ (numAt l 0 8 % 8)
/-- The element at which the copy starts. -/
def descProg (l : List Byte) : Nat := numAt l 8 8 % 2 ^ 41

/-- The product of the counts of the first n dimensions. -/
def descTotal (l : List Byte) : Nat → Nat
  | 0 => 1
  | n + 1 => descTotal l n * descCount l n

/-- A stride is wrong: a used one is no multiple of the element size, an unused one is nonzero. -/
def badStride (l : List Byte) (d : Nat) (str : Int) : Bool :=
  if d < descNd l then decide (str % (descEsz l : Int) ≠ 0) else decide (str ≠ 0)

/-- The count of a dimension is wrong, or the product first exceeds 2^40 with it. -/
def badCount (l : List Byte) (d : Nat) : Bool :=
  if d < descNd l then
    decide (descCount l d = 0) || (decide (2 ^ 40 < descTotal l (d + 1)) && decide (descTotal l d ≤ 2 ^ 40))
  else decide (descCount l d ≠ 0)

/-- The byte offset of the first bad field of a descriptor, in ascending offset order; `unit` is the type size of a
reducing copy, 1 otherwise (R217, R219). -/
def descBad (l : List Byte) (unit : Nat) : Option Nat :=
  if numAt l 0 8 % 8 = 7 || descNd l = 0 || 8 < descNd l || 128 ≤ numAt l 0 8 || descEsz l % unit ≠ 0 then some 0
  else if 2 ^ 41 ≤ numAt l 8 8 || descTotal l (descNd l) < descProg l then some 8
  else
    ((((List.range 8).find? (badCount l)).map (fun d => 0x10 + 4 * d)).orElse
      (fun _ => ((List.range 8).find? (fun d => badStride l d (descSstr l d))).map (fun d => 0x30 + 4 * d))).orElse
      (fun _ => (((List.range 8).find? (fun d => badStride l d (descDstr l d))).map (fun d => 0x50 + 4 * d)).orElse
        (fun _ => if numAt l 0x70 16 = 0 then none else some 0x70))

/-- The dimensions of a descriptor. -/
def descDims (l : List Byte) : List Dim :=
  (List.range (descNd l)).map (fun d => { count := descCount l d, sstr := descSstr l d, dstr := descDstr l d })

/-- The lowest offset a list of (count, stride) reaches. -/
def loOff : List (Nat × Int) → Int
  | [] => 0
  | (c, s) :: r => min 0 (((c : Int) - 1) * s) + loOff r

/-- The highest offset a list of (count, stride) reaches. -/
def hiOff : List (Nat × Int) → Int
  | [] => 0
  | (c, s) :: r => max 0 (((c : Int) - 1) * s) + hiOff r

/-- The access to the range of one side of a tensor copy (R218). -/
def rangeAccess (g : GReg) (r : Reg) (operand : Nat) (l : List (Nat × Int)) (esz : Nat) (perms : BitVec 5) : Access :=
  copyAccess g r operand (loOff l) ((hiOff l - loOff l).toNat + esz) esz perms

/-- One step of CRC-32C, least significant bit first (log entry 9). -/
def crcBit (c : BitVec 32) : BitVec 32 := if c.getLsbD 0 then (c >>> 1) ^^^ 0x82F63B78 else c >>> 1

/-- CRC-32C of a byte on top of a running value. -/
def crcByte (c : BitVec 32) (b : Byte) : BitVec 32 :=
  crcBit (crcBit (crcBit (crcBit (crcBit (crcBit (crcBit (crcBit (c ^^^ b.setWidth 32))))))))

/-- CRC-32C (log entry 9). -/
def crc32c (l : List Byte) : BitVec 32 := ~~~ (l.foldl crcByte (BitVec.allOnes 32))

/-- The dcrc of a descriptor: bytes 0x00 to 0x07 and 0x10 to 0x7F (R215). -/
def descCrc (l : List Byte) : BitVec 32 := crc32c (l.take 8 ++ l.drop 16)

/-- The access to a descriptor (R218). -/
def descAccess (g : GReg) (r : Reg) : Access :=
  { copyAccess g r 2 0 128 64 (permL ||| permS) with storeOnly := true, rd := true, wr := true }

/-- cpyt and cpyr: the descriptor's capability, the descriptor, then both ranges (R218, R219). -/
def State.tensorCopy (s : State) (d a b c : Reg) (unit : Nat) (dstPerms : BitVec 5) (k : Copy) : State :=
  s.withAccess (descAccess (s.g c) c) (fun da t =>
    let l := s.readBytes s.cur.vt da 128
    match descBad l unit with
    | some off => t.raise (engDesc off)
    | none =>
      let dims := descDims l
      t.withAccess (rangeAccess (s.g a) a 0 (dims.map (fun e => (e.count, e.dstr))) (descEsz l) dstPerms) (fun _ u =>
        u.withAccess (rangeAccess (s.g b) b 1 (dims.map (fun e => (e.count, e.sstr))) (descEsz l) permL) (fun _ v =>
          v.issueCopy d { k with
            src := (s.g b).cursor, dst := (s.g a).cursor, lend := BitVec.ofNat 32 da, dcrc := descCrc l,
            prog := BitVec.ofNat 41 (descProg l), esz := descEsz l, dims := dims,
            total := descTotal l (descNd l) })))

/-- cpyt (R218). -/
def execCpyt (d a b c : Reg) (s : State) : Out :=
  .next (s.forProcess (.cpyt d a b c) (s.tensorCopy d a b c 1 permS { kind := .cpyt }))

/-- The size of a type of cpyr (R219). -/
def cpyrSize (t : BitVec 2) : Nat :=
  match t.toNat with
  | 1 => 2
  | 3 => 8
  | _ => 4

/-- cpyr (R219). -/
def execCpyr (d a b c : Reg) (t o : BitVec 2) (s : State) : Out :=
  .next (s.forProcess (.cpyr d a b c t o)
    (s.tensorCopy d a b c (cpyrSize t) (permL ||| permS) { kind := .cpyr, ty := t, op := o }))

/-! External copies (R221). -/

/-- The link entry of an optical port (R299). -/
def opticalEntry (port : Nat) : Nat := 14544 + port
/-- The host-link entry. -/
def hostEntry : Nat := 14592

/-- The network of the tenant a vtile belongs to. -/
def State.netOf (s : State) (k : Nat) : Network := Sparse.get s.nets (k / 65536)

/-- The port reaches the aperture over a live link: port 63 the host, an optical port the peer at its far end (R221,
R300). -/
def State.portReaches (s : State) (port : Nat) (ap : Aperture) : Bool :=
  if ap.peer then decide (port < 48) && decide ((Sparse.get s.links (opticalEntry port)).cond ≠ 15)
      && decide ((Sparse.get s.links (opticalEntry port)).peer = ap.serial)
  else decide (port = 63) && decide ((Sparse.get s.links hostEntry).cond ≠ 15)

/-- The operand registers of a cpyx are refused (R221). -/
def State.badExternal (s : State) (x len : Nat) (isIn : Bool) : Bool :=
  let ap := Sparse.get (s.netOf s.cur.vt).apertures (x % 256)
  let port := x / 256 % 64
  let off := x / 2 ^ 24
  decide (ap.size = 0) || decide (off % 64 ≠ 0) || decide (len % 64 ≠ 0) || decide (len = 0)
    || decide (0x40000000 < len) || decide (ap.size < off + len) || (if isIn then !ap.rd else !ap.wr)
    || decide (x / 2 ^ 14 % 2 ^ 10 ≠ 0) || !s.portReaches port ap

/-- cpyx in either direction (R221). -/
def State.externalCopy (s : State) (d a b c : Reg) (isIn : Bool) : State :=
  let x := (s.x b).toNat
  let len := (s.x c).toNat
  if s.badExternal x len isIn then s.raise (engDesc 0)
  else s.withAccess (copyAccess (s.g a) a 0 0 len 64 (if isIn then permS else permL)) (fun addr t =>
    t.issueCopy d {
      kind := if isIn then .xin else .xout, port := BitVec.ofNat 6 (x / 256),
      apt := BitVec.ofNat 8 x, xoff := BitVec.ofNat 39 (x / 2 ^ 30), lend := BitVec.ofNat 32 len,
      src := if isIn then 0 else BitVec.ofNat 32 addr, dst := if isIn then BitVec.ofNat 32 addr else 0,
      total := len / 64, since := s.time })

/-- cpyx.out. -/
def execCpyxOut (d a b c : Reg) (s : State) : Out :=
  .next (s.forProcess (.cpyxOut d a b c) (s.externalCopy d a b c false))
/-- cpyx.in. -/
def execCpyxIn (d a b c : Reg) (s : State) : Out :=
  .next (s.forProcess (.cpyxIn d a b c) (s.externalCopy d a b c true))

end Sys2Proof.Machine
end

