-- ==== Sys2Proof/Machine/Element.lean ====
section
/-! DEFINITION. The elements of copies and output pumps: where they lie, and how one that is being written is written
whole (R71, R97, R216, R217, R220, R222). -/

namespace Sys2Proof.Machine

/-! Copies. -/

/-- The vtile with one copy-queue entry changed. -/
def VTile.updCopy (t : VTile) (e : Nat) (f : Copy → Copy) : VTile :=
  t.updIm (fun m => { m with copies := Sparse.upd m.copies e f })

/-- A copy-queue entry of a vtile. -/
def State.copyAt (s : State) (k e : Nat) : Copy := Sparse.get (s.tile k).im.copies e

/-- The state with one copy-queue entry changed. -/
def State.updCopyAt (s : State) (k e : Nat) (f : Copy → Copy) : State := s.updTile k (fun t => t.updCopy e f)

/-- The offset of an element of a tensor copy: the index vector against the strides (R217). -/
def dimOffset (f : Dim → Int) : List Dim → Nat → Int
  | [], _ => 0
  | d :: r, n => ((n % d.count : Nat) : Int) * f d + dimOffset f r (n / d.count)

/-- An address moved by an offset. -/
def addrPlus (a : BitVec 32) (off : Int) : Nat := ((a.toNat : Int) + off).emod (2 ^ 32) |>.toNat

/-- The source, destination and size of an element of a local copy (R216, R217). -/
def Copy.element (c : Copy) (n : Nat) : Nat × Nat × Nat :=
  if c.kind = .cpy then (addrPlus c.src (64 * n), addrPlus c.dst (64 * n), min 64 (c.lend.toNat - 64 * n))
  else (addrPlus c.src (dimOffset Dim.sstr c.dims n), addrPlus c.dst (dimOffset Dim.dstr c.dims n), c.esz)

/-- A local copy past one element. -/
def Copy.pass (c : Copy) : Copy :=
  { c with prog := c.prog + 1, early := dropUnits c.early c.prog.toNat, wrote := [] }

/-- The tile address of an element of a cpyx. -/
def Copy.localAt (c : Copy) (n : Nat) : Nat := addrPlus (if c.kind = .xin then c.dst else c.src) (64 * n)

/-- The elements done in order are counted in prog, and xoff stands at the next one. -/
def Copy.advance (c : Copy) : Nat → Copy
  | 0 => c
  | n + 1 =>
    if c.acked.contains c.prog.toNat then
      { c with prog := c.prog + 1, xoff := c.xoff + 1, acked := c.acked.erase c.prog.toNat }.advance n
    else c

/-- A cpyx with one of its elements done. -/
def Copy.elemDone (c : Copy) (n : Nat) : Copy :=
  { c with
    sent := c.sent.filter (fun x => x.elem != n), kept := c.kept.filter (fun x => x.elem != n)
    early := dropUnits c.early n, wrote := c.wrote.filter (fun u => u / 8 != n)
    acked := c.acked ++ [n] }.advance (c.acked.length + 1)

/-! Pumps. -/

/-- An output pump past its oldest appended element. -/
def Pump.written (u : Pump) : Pump := { u with pend := u.pend.drop 1, wrote := [] }

/-! An element that is being written. An element is read whole before its first unit is written, so that its units all
stand among those read ahead; and what stops its agent, or changes the translation that it is written under, finds it
written whole: agents stop at an element boundary, and a tlbinv waits for the accesses under way. -/

/-- The bytes of an element of which every unit is read. -/
def unitBytes (early : Sparse (List Byte)) (n len : Nat) : List Byte := mixUnits early (8 * n) (List.replicate len 0)

/-- The rest of an element of a cpyx.in that is being written. -/
def State.finishIn (s : State) (k e n : Nat) : State :=
  let c := s.copyAt k e
  (s.writeUnits k (c.localAt n) c.wrote (8 * n) (unitBytes c.early n 64)).updCopyAt k e (fun c => c.elemDone n)

/-- The rest of the element that a local copy is writing. -/
def State.finishLocal (s : State) (k e : Nat) : State :=
  let c := s.copyAt k e
  let n := c.prog.toNat
  (s.writeUnits k (c.element n).2.1 c.wrote (8 * n) (unitBytes c.early n (c.element n).2.2)).updCopyAt k e Copy.pass

/-- The elements that a copy is writing, of an owner and at a place that meet a condition, are written whole. -/
def State.finishCopy (s : State) (k : Nat) (f : Nat → Nat → Bool) (e : Nat) : State :=
  let c := s.copyAt k e
  if c.wrote.isEmpty then s
  else if c.kind = .xin then
    (c.wrote.map (· / 8)).eraseDups.foldl (fun t n => if f c.owner.toNat (c.localAt n) then t.finishIn k e n else t) s
  else if f c.owner.toNat (c.element c.prog.toNat).2.1 then s.finishLocal k e
  else s

/-- Likewise the element that an output pump is writing. -/
def State.finishDrain (s : State) (k : Nat) (f : Nat → Nat → Bool) (q p : Nat) : State :=
  let u := (s.procAt k q).pump p
  match u.pend with
  | [] => s
  | (n, v) :: _ =>
    if u.wrote.isEmpty || !f q (u.place n) then s
    else (s.writeUnits k (u.place n) u.wrote (8 * n) (toBytes 64 v.toNat)).updProcAt k q (fun c => c.updPump p Pump.written)

end Sys2Proof.Machine
end

