-- ==== Sys2Proof/Machine/Waits.lean ====
section
/-! DEFINITION. Waits on the engines and pumps: mfree, mwait, cwait, fence, pdrain and pfree, what satisfies them, and
the other copy and pump instructions (R77, R199, R201, R206, R223); slots that become free (R26). -/

namespace Sys2Proof.Machine

/-- A local copy. -/
def Copy.isLocal (c : Copy) : Bool := decide (c.kind = .cpy) || decide (c.kind = .cpyt) || decide (c.kind = .cpyr)
/-- A tensor copy: it has a descriptor. -/
def Copy.isTensor (c : Copy) : Bool := decide (c.kind = .cpyt) || decide (c.kind = .cpyr)
/-- A cpyx. -/
def Copy.isExternal (c : Copy) : Bool := decide (c.kind = .xout) || decide (c.kind = .xin)

/-- A slot has a copy of a kind outstanding. -/
def VTile.hasCopy (t : VTile) (q : Nat) (f : Copy → Bool) : Bool :=
  t.im.copies.any (fun e => f e.2 && e.2.ofSlot q)

/-- A slot has a matrix command queued or executing. -/
def VTile.hasMat (t : VTile) (q : Nat) : Bool := t.im.mats.any (fun e => decide (e.slot.toNat = q))

/-- A process has appended output-pump elements not yet written. -/
def Proc.undrained (p : Proc) : Bool := p.pumps.any (fun e => !e.2.pend.isEmpty)

/-- What a fence waits for has ended (R77). -/
def VTile.fenceOver (t : VTile) (q : Nat) (f : BitVec 2) : Bool :=
  let e := !t.hasMat q && !t.hasCopy q Copy.isLocal
  let p := !(t.proc q).undrained
  let x := !t.hasCopy q Copy.isExternal
  match f.toNat with
  | 0 => e
  | 1 => p
  | 2 => x
  | _ => e && p && x

/-- The tile's record of a latch (R52). -/
def VTile.latch (t : VTile) (e : Nat) : LatchRec := Sparse.get t.im.recs e

/-- A wait for a phase of a latch is satisfied: sext((lp - target) mod 2^16, 16) >= 0 (R55). -/
def VTile.latOver (t : VTile) (e : Nat) (target : BitVec 16) : Bool := decide (0 ≤ ((t.latch e).lp - target).toInt)

/-- An output pump has appended elements not yet written: pdrain and pfree wait for them (R201). -/
def Pump.draining (u : Pump) : Bool := u.bound && u.out && !u.pend.isEmpty

/-- The wait of a context's blocked instruction on an engine, a pump or a latch is over. -/
def VTile.waitOver (t : VTile) (q : Nat) : Bool :=
  match instrOf (t.proc q).wait.word with
  | .mwait c | .mfree c => !t.inFlight c
  | .cwait _ => !t.copyOut q ((t.proc q).wait.target.setWidth 16)
  | .fence f => t.fenceOver q f
  | .pdrain k | .pfree k => !((t.proc q).pump k.toNat).draining
  | .latwait _ e => t.latOver e.toNat ((t.proc q).wait.target.setWidth 16)
  | _ => false

/-- A pump's binding is released; an unbound pump stays as it is (R201). -/
def Proc.freePump (p : Proc) (k : Nat) : Proc := if (p.pump k).bound then { p with pumps := Sparse.set p.pumps k {} } else p

/-- The effect of a blocked instruction when its wait is over: mfree frees, pfree releases. -/
def VTile.waitEffect (t : VTile) (q : Nat) : VTile :=
  match instrOf (t.proc q).wait.word with
  | .mfree c => t.freeAcc q c
  | .pfree k => t.updProc q (fun p => p.freePump k.toNat)
  | _ => t

/-- A blocked slot whose wait on an engine, a pump or a latch is over completes its instruction. -/
def VTile.settleSlot (time : Word) (t : VTile) (q : Nat) : VTile :=
  if (t.proc q).st = .blocked && t.waitOver q then
    ((t.waitEffect q).updProc q Proc.complete).boundaryPark q time
  else t

/-- A slot has outstanding work (R22). -/
def VTile.busy (t : VTile) (q : Nat) : Bool :=
  t.hasMat q || t.hasCopy q (fun c => decide (c.kind ≠ .none)) || (t.proc q).undrained

/-- An accumulator of a slot that has exited is freed once its commands have finished (R26). -/
def VTile.freeExited (t : VTile) (c : Nat) : VTile :=
  let a := t.acc (BitVec.ofNat 3 c)
  if a.valid && (t.proc a.owner.toNat).st = .exited && !t.inFlight (BitVec.ofNat 3 c)
  then t.freeAcc a.owner.toNat (BitVec.ofNat 3 c) else t

/-- A slot that has exited and has no outstanding work goes EMPTY (R22, R26); its registers stand until a process starts
in it. -/
def VTile.reap (t : VTile) (q : Nat) : VTile :=
  if (t.proc q).st = .exited && !t.busy q then t.updProc q (fun p => { p with st := .empty, pumps := [] }) else t

/-- What follows the end of any engine or pump work: waits that are over complete, and slots become free. -/
def VTile.settle (t : VTile) (time : Word) : VTile :=
  (List.range 8).foldl VTile.reap
    ((List.range 8).foldl VTile.freeExited ((List.range 8).foldl (VTile.settleSlot time) t))

/-- An instruction that waits: it completes at once when its wait is over, else the process goes BLOCKED (R22). The
monitor has no wait states: its instruction issues again until the wait is over. -/
def State.awaits (s : State) (i : Instr) (kind : WaitKind) (target : Word) (ended : Bool) (f : State → State) : State :=
  if ended then (f s).next
  else if s.inMonitor then s
  else s.updProc (fun p => p.block { word := wordOf i, kind := kind, target := target })

/-- mfree (R206). -/
def execMfree (c : BitVec 3) (s : State) : Out :=
  .next (s.forProcess (.mfree c) (s.owning c (fun t =>
    t.awaits (.mfree c) .mwait 0 (!t.here.inFlight c) (fun u => u.updHere (fun v => v.freeAcc u.cur.who c)))))

/-- mwait (R206). -/
def execMwait (c : BitVec 3) (s : State) : Out :=
  .next (s.forProcess (.mwait c) (s.owning c (fun t =>
    t.awaits (.mwait c) .mwait 0 (!t.here.inFlight c) id)))

/-- cwait (R223). -/
def execCwait (a : Reg) (s : State) : Out :=
  .next (s.forProcess (.cwait a)
    (s.awaits (.cwait a) .cwait ((s.x a).setWidth 16 |>.setWidth 64)
      (!s.here.copyOut s.cur.who ((s.x a).setWidth 16)) id))

/-- cpoll (R223). -/
def execCpoll (d a : Reg) (s : State) : Out :=
  .next (s.forProcess (.cpoll d a)
    (s.put d (if s.here.copyOut s.cur.who ((s.x a).setWidth 16) then 0 else 1)))

/-- A copy's entry is freed. -/
def VTile.freeCopy (t : VTile) (e : Nat) : VTile := t.updIm (fun m => { m with copies := Sparse.set m.copies e {} })

/-- The progress of a tensor copy written to its descriptor, as at every pause and at completion (R220). -/
def VTile.recordProg (t : VTile) (e : Nat) : VTile :=
  let c := Sparse.get t.im.copies e
  if c.isTensor then t.storeBytes (c.lend.toNat + 8) (toBytes 8 c.prog.toNat) else t

/-- The end of one copy as cabort and a kill make it: a local copy stops at its element boundary and is complete; a
cpyx is complete once its elements already sent are acknowledged, or 10 us later (R223, R27). -/
def VTile.abortCopy (t : VTile) (e : Nat) (time : Word) : VTile :=
  let c := Sparse.get t.im.copies e
  if c.isLocal || c.sent.isEmpty then (t.recordProg e).freeCopy e
  else if c.st = 2 then t
  else t.updCopy e (fun c => { c with st := 2, since := time })

/-- The entry of a slot's outstanding copy with an id. -/
def VTile.entryOf (t : VTile) (q : Nat) (id : BitVec 16) : Option Nat :=
  (List.range 16).find? (fun e =>
    let c := Sparse.get t.im.copies e
    c.ofSlot q && c.id == id)

/-- cabort: does not block; an id not outstanding is ignored (R223). -/
def execCabort (a : Reg) (s : State) : Out :=
  .next (s.forProcess (.cabort a)
    (match s.here.entryOf s.cur.who ((s.x a).setWidth 16) with
     | some e =>
       ((s.finishCopy s.cur.vt (fun _ _ => true) e).updHere (fun t => (t.abortCopy e s.time).settle s.time)).next
     | none => s.next))

/-- fence (R77). -/
def execFence (f : BitVec 2) (s : State) : Out :=
  .next (s.awaits (.fence f) .fence 0 (s.here.fenceOver s.cur.who f) id)

/-! Pump instructions (R199, R201). -/

/-- A fault of pbind names its pump (R85). -/
def onPump (k : BitVec 2) (f : Flt) : Flt := { f with objk := 3, obj := k.setWidth 8 }

/-- The access of an element of a pump at its bind; page rights are not checked (R199). -/
def bindAccess (g : GReg) (r : Reg) (off : Int) (out : Bool) : Access :=
  { copyAccess g r 0 off 64 64 (if out then permS else permL) with rd := !out, wr := out }

/-- The first fault of the elements k to k + n - 1 of a pump. -/
def State.bindFault (s : State) (g : GReg) (r : Reg) (u : Pump) (out : Bool) (k : Nat) : Nat → Option Flt
  | 0 => none
  | n + 1 =>
    match s.check (bindAccess g r (u.offset k) out) with
    | .error f => some f
    | .ok _ => s.bindFault g r u out (k + 1) n

/-- The tag and perms of a pump with no elements (R199). -/
def bindPerms (g : GReg) (r : Reg) (out : Bool) : Option Flt :=
  let a := bindAccess g r 0 out
  if !g.tag then some (a.flt codeCapTag)
  else if g.perms &&& a.perms ≠ a.perms then some (a.flt codeCapPerm)
  else none

/-- pbind (R199). With stride 0 every element lies at the cursor, so one check stands for all. -/
def State.pbind (s : State) (a b : Reg) (k : BitVec 2) (out : Bool) : State :=
  let u : Pump := { cap := s.g a, desc := s.x b, bound := true, out := out }
  let stride : BitVec 32 := (s.x b).setWidth 32
  if stride.toInt % 64 ≠ 0 || (s.proc.pump k.toNat).bound then s.raise (onPump k (engDesc 0))
  else
    match (if u.count = 0 then bindPerms (s.g a) a out
      else s.bindFault (s.g a) a u out 0 (if stride = 0 then 1 else u.count.toNat)) with
    | some f => s.raise (onPump k f)
    | none => (s.updProc (fun p => { p with pumps := Sparse.set p.pumps k.toNat u })).next

/-- pbind.in. -/
def execPbindIn (a b : Reg) (p : BitVec 2) (s : State) : Out := .next (s.pbind a b p false)
/-- pbind.out. -/
def execPbindOut (a b : Reg) (p : BitVec 2) (s : State) : Out := .next (s.pbind a b p true)

/-- pdrain (R201). -/
def execPdrain (p : BitVec 2) (s : State) : Out :=
  .next (s.awaits (.pdrain p) .fence 0 (!(s.proc.pump p.toNat).draining) id)

/-- pstat (R201). -/
def execPstat (d : Reg) (p : BitVec 2) (s : State) : Out :=
  let u := s.proc.pump p.toNat
  .next (s.put d (BitVec.ofNat 64 (u.pos.toNat + (if u.bound then 2 ^ 32 else 0) + (if u.out then 2 ^ 33 else 0)
    + (if u.pend.isEmpty then 0 else 2 ^ 34))))

/-- pfree (R201). -/
def execPfree (p : BitVec 2) (s : State) : Out :=
  .next (s.awaits (.pfree p) .fence 0 (!(s.proc.pump p.toNat).draining)
    (fun t => t.updProc (fun c => c.freePump p.toNat)))

end Sys2Proof.Machine
end

