-- ==== Sys2Proof/Machine/Messages.lean ====
section
/-! DEFINITION. The fabric: routes and virtual channels, the input log, sending and receiving messages, and holding
them for a frozen or absent tile (R23, R43, R102, R267, R332 to R334). -/

namespace Sys2Proof

/-- A message carries data on a route. -/
def Msg.isData (m : Msg) : Bool :=
  match m.kind with
  | .flits _ _ _ _ _ => true
  | _ => false

/-- Two messages say the same of the same ends. -/
def Msg.same (a b : Msg) : Bool := decide (a.src = b.src) && decide (a.dst = b.dst) && decide (a.kind = b.kind)

/-- A message starts or ends a match, or lets a select grant a claim, so a frozen process does not take it (R23). -/
def MsgKind.matches : MsgKind → Bool
  | .claim _ _ _ | .confirm _ | .grant _ | .refusal | .go _ => true
  | _ => false

/-- A message that waits until an absent tenant is resident again: claims on its offers, and what moves its data; the
grants of its own claims are recorded (R102). -/
def MsgKind.forResident : MsgKind → Bool
  | .claim _ _ _ | .confirm _ | .go _ | .flits _ _ _ _ _ => true
  | _ => false

/-- A claim or a confirmation request. -/
def MsgKind.isClaim : MsgKind → Bool
  | .claim _ _ _ | .confirm _ => true
  | _ => false

/-- A message is a claim, a request or data: held while the log has no room (R333). -/
def MsgKind.claimOrData : MsgKind → Bool
  | .claim _ _ _ | .confirm _ | .flits _ _ _ _ _ => true
  | _ => false

/-- An acknowledgement. -/
def MsgKind.isAck : MsgKind → Bool
  | .ack _ => true
  | _ => false

end Sys2Proof

namespace Sys2Proof.Machine

/-! Links (R299, R300). -/

/-- The number of link entries. -/
def linkCount : Nat := 14593
/-- The index of the first optical entry. -/
def opticalBase : Nat := 14544
/-- The index of the host-link entry. -/
def hostLinkEntry : Nat := 14592

/-- A link is live: its entry is not missing. -/
def State.linkLive (s : State) (i : Nat) : Bool := decide ((Sparse.get s.links i).cond ≠ 15) && !s.links.isEmpty

/-- A link is missing: what would cross it cannot be delivered (R45, R301). -/
def State.linkMissing (s : State) (i : Nat) : Bool := decide ((Sparse.get s.links i).cond = 15)

/-! Routes (R267). -/

/-- A physical tile from its region and its mesh coordinates. -/
def tileAt (region u w : Nat) : Nat := (8 * (region / 8) + w) * 128 + 16 * (region % 8) + u

/-- Hops along a ring of n places, the shorter way. -/
def ringHops (n a b : Nat) : Nat := min ((b + n - a) % n) ((a + n - b) % n)

/-- Hops between two places of a mesh. -/
def meshHops (a b : Nat × Nat) : Nat := ringHops 16 a.1 b.1 + ringHops 8 a.2 b.2

/-- The places a route leaves along a ring of n places, each with whether it goes toward increasing coordinates; a tie
does. -/
def ringPath (n b : Nat) : Nat → Nat → List (Nat × Bool)
  | 0, _ => []
  | f + 1, a =>
    if a = b then []
    else if 2 * ((b + n - a) % n) ≤ n then (a, true) :: ringPath n b f ((a + 1) % n)
    else (a, false) :: ringPath n b f ((a + n - 1) % n)

/-- The link directions of a route inside a region: along u, then along w. -/
def meshRoute (region : Nat) (a b : Nat × Nat) : List Nat :=
  (ringPath 16 b.1 16 a.1).map (fun p => tileAt region p.1 a.2 * 4 + (if p.2 then 0 else 1))
    ++ (ringPath 8 b.2 8 a.2).map (fun p => tileAt region b.1 p.1 * 4 + (if p.2 then 2 else 3))

/-- The gateway routers of a region, in the order of ties: lower w, then lower u. -/
def gateways : List (Nat × Nat) := [(3, 3), (12, 3), (3, 4), (12, 4)]

/-- The gateway router nearest a place. -/
def nearestGateway (a : Nat × Nat) : Nat × Nat :=
  gateways.foldl (fun g h => if meshHops a h < meshHops a g then h else g) (3, 3)

/-- The mesh coordinates of a physical tile. -/
def meshOf (p : Nat) : Nat × Nat := (meshU p, meshW p)

/-- The link directions of the route between two tiles; an express channel is numbered above the mesh links. -/
def routeOf (p q : Nat) : List Nat :=
  if regionOf p = regionOf q then meshRoute (regionOf p) (meshOf p) (meshOf q)
  else meshRoute (regionOf p) (meshOf p) (nearestGateway (meshOf p))
    ++ [2 ^ 20 + regionOf p * 64 + regionOf q]
    ++ meshRoute (regionOf q) (nearestGateway (meshOf q)) (meshOf q)

/-- The route from a tile to a port, which stands at the gateway of its region (log entry 98). -/
def routeOut (p port : Nat) : List Nat :=
  meshRoute (regionOf p) (meshOf p) (nearestGateway (meshOf p))
    ++ (if regionOf p = port then [] else [2 ^ 20 + regionOf p * 64 + port])

/-- The route from a port to a tile. -/
def routeIn (port q : Nat) : List Nat :=
  (if regionOf q = port then [] else [2 ^ 20 + port * 64 + regionOf q])
    ++ meshRoute (regionOf q) (nearestGateway (meshOf q)) (meshOf q)

/-- The entry of the link that a step of a route takes: a mesh link stands with the tile at its lower end, and serves both
directions (R299). -/
def linkOf (l : Nat) : Nat :=
  let p := l / 4
  if 2 ^ 20 ≤ l then
    let a := (l - 2 ^ 20) / 64
    let b := (l - 2 ^ 20) % 64
    12288 + 47 * a + (if b < a then b else b - 1)
  else
    match l % 4 with
    | 0 => 2 * p
    | 1 => 2 * tileAt (regionOf p) ((meshU p + 15) % 16) (meshW p)
    | 2 => 2 * p + 1
    | _ => 2 * tileAt (regionOf p) (meshU p) ((meshW p + 7) % 8) + 1

/-- No link of a route is missing. -/
def State.routeLive (s : State) (r : List Nat) : Bool := r.all (fun l => !s.linkMissing (linkOf l))

/-- The key under which a vtile of a peer panel's network appears. -/
def farKey (vt : Nat) : Nat := 2 ^ 60 + vt

/-- An end stands on another panel. -/
def isFar (r : EndRef) : Bool := decide (farKey 0 ≤ r.vt)

/-- The port of an end's channel: that of the region of the same number. -/
def State.portOf (s : State) (r : EndRef) : Nat := (Sparse.get (s.tile r.vt).im.ends r.idx).port.toNat

/-- The route of a message on this panel. -/
def State.msgRoute (s : State) (m : Msg) : List Nat :=
  if isFar m.dst then routeOut (s.tile m.src.vt).ptile (s.portOf m.src)
  else if isFar m.src then routeIn (s.portOf m.dst) (s.tile m.dst.vt).ptile
  else routeOf (s.tile m.src.vt).ptile (s.tile m.dst.vt).ptile

/-- A message cannot be delivered: a link of its route is missing. A close notice goes over the management path, and so do
the messages of latches (R45; the model's choice for latches, log entry 113). -/
def State.cutOff (s : State) (m : Msg) : Bool :=
  decide (m.kind ≠ .close) && decide (m.src.idx < 256) && decide (m.dst.idx < 256) && !s.routeLive (s.msgRoute m)

/-- The data landing at the ends of every vtile. -/
def State.landings (s : State) : List Msg := s.vts.flatMap (fun v => v.2.im.ends.filterMap (fun e => e.2.inbuf))

/-- Data in flight has opened its route, at least in part. -/
def Msg.opened (m : Msg) : Bool := m.isData && (!m.parked || decide (0 < m.taken))

/-- The links that data in flight and data landing hold. -/
def State.heldRoutes (s : State) : List (List Nat) :=
  ((s.msgs.filter Sys2Proof.Machine.Msg.opened).map (fun m =>
      if m.parked then (s.msgRoute m).take m.taken else s.msgRoute m)) ++ s.landings.map s.msgRoute

/-- A link direction has no free virtual channel: 4 routes hold it. -/
def State.linkFull (s : State) (l : Nat) : Bool :=
  decide (4 ≤ (s.heldRoutes.filter (fun h => h.contains l)).length)

/-- A message carries a block. -/
def Msg.isBlock (m : Msg) : Bool :=
  match m.kind with
  | .flits kind _ _ _ _ => decide (kind = 2)
  | _ => false

/-- A tile streams at most one incoming and one outgoing block at a time: another one does (R97). -/
def State.blockBusy (s : State) (m : Msg) : Bool :=
  (s.msgs.filter Sys2Proof.Machine.Msg.opened ++ s.landings).any (fun o => Machine.Msg.isBlock o
    && (decide (o.dst.vt = m.dst.vt) || decide (o.src.vt = m.src.vt)))

/-- The state with the message at a place changed. -/
def State.updMsg (s : State) (n : Nat) (f : Msg → Msg) : State := { s with msgs := s.msgs.modify n f }

/-- A header flit takes the links of the rest of its route, one after another, and stops at the first without a free
virtual channel, holding those behind it. -/
def State.goAlong (s : State) (n : Nat) : List Nat → State
  | [] => s.updMsg n (fun m => { m with parked := false })
  | l :: r => if s.linkFull l then s else (s.updMsg n (fun m => { m with taken := m.taken + 1 })).goAlong n r

/-- A transfer between two vtiles of which one's tile is under a whole-tile freeze: what does not stream yet streams after
the thaw (R97 step 5). -/
def State.frozenSide (s : State) (m : Msg) : Bool :=
  (s.tile m.src.vt).freeze.isSome || (s.tile m.dst.vt).freeze.isSome

/-- The header flit of the data at a place of the fabric goes on; that of a block starts when no other block streams from
its source or to its destination, and none while a tile of the two is frozen (R97, R267, R270). -/
def State.advance (s : State) (n : Nat) : State :=
  match s.msgs[n]? with
  | none => s
  | some m =>
    if !m.isData || !m.parked || s.frozenSide m || (m.taken = 0 && Machine.Msg.isBlock m && s.blockBusy m) then s
    else s.goAlong n ((s.msgRoute m).drop m.taken)

/-! The input log (R332). Its payloads are made of numbers of 8 B: the model's choice (log entry 106). -/

/-- Numbers as a payload holds them. -/
def payload (l : List Nat) : List Byte := l.flatMap (toBytes 8)

/-- What a message says but for its data, as numbers: its kind's code and fields. -/
def kindFields (m : MsgKind) : List Nat :=
  let b (x : Bool) : Nat := if x then 1 else 0
  match m with
  | .offer psel plen => [0, b psel, plen.toNat]
  | .claim held wait plen => [1, b held, b wait, plen.toNat]
  | .confirm wait => [2, b wait]
  | .grant held => [3, b held]
  | .refusal => [4]
  | .withdrawal => [5]
  | .go plen => [6, plen.toNat]
  | .flits kind _ addr len _ => [7, kind.toNat, addr, len]
  | .ack moved => [8, moved]
  | .close => [9]
  | .latArrive => [10]
  | .latDrop => [11]
  | .latLeave phase => [12, phase.toNat]
  | .latPhase phase => [13, phase.toNat]

/-- The bytes of a message, of which its type 9 entry holds the first 8 B of the SHA-256. -/
def Msg.bytes (m : Msg) : List Byte :=
  payload ([m.src.vt, m.src.idx, m.dst.vt, m.dst.idx] ++ kindFields m.kind) ++ (match m.kind with
    | .flits _ value _ _ bytes => toBytes 64 value.toNat ++ bytes
    | _ => [])

/-- The payload of a type 9 entry: the end, the sequence number of the message, and its hash. -/
def sentPayload (m : Msg) (seq : BitVec 16) : List Byte :=
  payload [m.src.idx, seq.toNat] ++ (sha256 (Machine.Msg.bytes m)).take 8

/-- The payload of a type 8 entry: what the operation names and the values it writes. -/
def MonOp.bytes (op : MonOp) : List Byte :=
  match op with
  | .issue _ => []
  | .eret q => payload [0, q]
  | .resume q => payload [1, q]
  | .slotwr off v => payload [2, off, v.toNat]
  | .slotctl q act => payload [3, q, act]
  | .map page v => payload [4, page, v.toNat]
  | .next r => payload [5, r.slot.toNat]
  | .kill q => payload [6, q]
  | .word w v => payload [7, w, v.toNat]
  | .store a l _ => payload [8, a] ++ l
  | .peer => []

/-- The room that an entry takes: a header of 16 B and its payload padded to 16 B. Entries of type 0 are the model's own and
take none. -/
def LogEntry.size (e : LogEntry) : Nat := if e.ty = 0 then 0 else 16 + (e.bytes.length + 15) / 16 * 16

/-- An entry logged at the present tick. A tile in replay logs nothing. -/
def VTile.logEntry (t : VTile) (e : LogEntry) : VTile :=
  if t.replay.isSome then t
  else { t with
    log := t.log ++ [{ e with tick := t.tick }]
    logBytes := t.logBytes + e.size }

/-- An entry logged at a vtile. -/
def State.log (s : State) (k : Nat) (e : LogEntry) : State := s.updTile k (fun t => t.logEntry { e with when_ := s.time })

/-- An event logged for a replay to present again, with the message it applies (log entry 19). -/
def State.logEvent (s : State) (k : Nat) (ty : BitVec 8) (i : Instr) (m : Option Msg) : State :=
  s.log k { ty := ty, slot := BitVec.ofNat 3 s.arg.q, obj := s.arg.e, event := some (i, s.arg), msg := m }

/-- What the monitor, or a driver's answer, does to a tile enters its log (type 8). -/
def State.logOp (s : State) (k : Nat) (op : MonOp) : State := s.log k { ty := 8, mon := some op, bytes := op.bytes }

/-! Room (R331, R333). -/

/-- Bytes of the log area of a cistern. -/
def logArea : Nat := 27262976

/-- Pages of the snapshot pool of a cistern. -/
def poolPages : Nat := 512

/-- The pool's pages in use. -/
def VTile.poolUsed (t : VTile) : Nat := t.snaps.length + t.stagedSnaps.length

/-- Little room is left: less than 1 MiB of the log, or than 64 pages of the pool. -/
def VTile.lowRoom (t : VTile) : Bool := decide (logArea < t.logBytes + 2 ^ 20) || decide (poolPages < t.poolUsed + 64)

/-- Hardly any room is left: less than 68 KiB of the log, or no page of the pool. -/
def VTile.noRoom (t : VTile) : Bool := decide (logArea < t.logBytes + 68 * 1024) || decide (poolPages ≤ t.poolUsed)

/-- Claims, data and well writes wait for a commit (R333). -/
def VTile.needsCommit (t : VTile) : Bool := t.starved || t.noRoom

/-- A write of an engine, a pump or landing data to a place waits for a commit. Under a whole-tile freeze it does not, since the
capture that the commit follows waits for it (log entry 17), and a replay presents it at its tick. -/
def State.wellWaits (s : State) (k a : Nat) : Bool :=
  let t := s.tile k
  decide (wellLo ≤ a) && t.needsCommit && t.freeze.isNone && !s.presenting

/-! Sending. -/

/-- A type 9 entry of a message of an end. -/
def LogEntry.sentBy (e : LogEntry) (r : EndRef) : Bool :=
  decide (e.ty = 9) && (match e.msg with | some m => decide (m.src = r) | none => false)

/-- The end and the sequence number of a message sent, as a report's aux (R341). -/
def VTile.sentAux (t : VTile) (m : Msg) : Word :=
  BitVec.ofNat 64 (m.src.idx % 256 + (Sparse.get t.im.ends m.src.idx).sentSeq.toNat * 256)

/-- A tile in replay compares what it sends with the next message logged for the end: a match is suppressed, a mismatch
is a divergence, and nothing is sent (R334). -/
def VTile.replaySend (t : VTile) (m : Msg) : VTile :=
  let l := t.replay.getD []
  match l.find? (fun e => e.sentBy m.src) with
  | some e =>
    { t with
      replay := some (l.erase e)
      diverged := if (e.msg.getD {}).same m then t.diverged else t.diverged ++ [t.sentAux m] }
  | none => { t with diverged := t.diverged ++ [t.sentAux m] }

/-- Where a vtile stands by the map of another one's router: on its old tile while the router has not yet the new map
(R336). -/
def State.standsAt (s : State) (src dst : Nat) : Nat :=
  let p := (s.tile dst).ptile
  (s.rel.rotations.findSome? (fun e => match e.2 with
    | some x => if x.dest = p && x.routers.contains (s.tile src).ptile then some x.from_ else none
    | none => none)).getD p

/-- The flits of a message: one of a control message, a word or a vector, and one for each 64 B of a block (R270). -/
def Msg.flitsOf (m : Msg) : List Flit :=
  let n := match m.kind with
    | .flits kind _ _ len _ => if kind = 2 then max 1 ((len + 63) / 64) else 1
    | _ => 1
  (List.range n).map (fun i => { msg := m, idx := i, of_ := n })

/-- A list cut into pieces of ten: the flits of a codeword (R349). -/
def tens {α : Type} (l : List α) : List (List α) :=
  (List.range ((l.length + 9) / 10)).map (fun i => (l.drop (10 * i)).take 10)

/-- A codeword leaves on a lane, with the lane's next number. -/
def State.codeword (s : State) (port lane : Nat) (l : List Flit) : State :=
  { s with
    farOut := s.farOut ++
      [{ port := port, lane := lane, seq := (Sparse.get s.lanes (port * 64 + lane)).txSeq, flits := l }]
    lanes := Sparse.upd s.lanes (port * 64 + lane) (fun x => { x with txSeq := x.txSeq + 1 }) }

/-- The flits of a list dealt to the j-th of n lanes. -/
def dealt {α : Type} (n j : Nat) (l : List α) : List α :=
  (List.range (l.length / n + 1)).filterMap (fun i => l[n * i + j]?)

/-- A port deals flits round-robin to its working lanes; ten make a codeword, and the last of a lane leaves with what it
has (R349, log entry 99). -/
def State.deal (s : State) (port : Nat) (l : List Flit) : State :=
  let o := Sparse.get s.optPorts port
  let n := o.lanes.length
  let t := (List.range n).foldl (fun t j =>
    (tens (dealt n j l)).foldl (fun t c => t.codeword port (o.lanes.getD ((o.tx + j) % n) 0) c) t) s
  { t with optPorts := Sparse.set t.optPorts port { o with tx := (o.tx + l.length) % max 1 n } }

/-- A message that has come to its port leaves the panel, if the port emits: its link is not missing, so it has its receive
signal (R347). -/
def State.leave (s : State) (n : Nat) : State :=
  match s.msgs[n]? with
  | none => s
  | some m =>
    if isFar m.dst && !m.parked && s.linkLive (opticalBase + s.portOf m.src) then
      { s with msgs := s.msgs.eraseIdx n }.deal (s.portOf m.src) (Machine.Msg.flitsOf m)
    else s

/-- A message stands in the fabric: its header flit sets out; a control message for another panel leaves through its port,
and data when the fabric says so. -/
def State.setOut (s : State) (m : Msg) : State :=
  let t : State := { s with msgs := s.msgs ++ [{ m with parked := m.isData, taken := 0 }] }
  if m.isData then t.advance s.msgs.length else t.leave s.msgs.length

/-- A message enters the fabric: nothing goes to a lost vtile. -/
def State.emit (s : State) (m : Msg) : State :=
  if isFar m.dst then s.setOut m
  else if (s.tile m.dst.vt).lost then s
  else s.setOut { m with tile := s.standsAt m.src.vt m.dst.vt }

/-- A vtile sends a message, logged as type 9. -/
def State.send (s : State) (m : Msg) : State :=
  if (s.tile m.src.vt).replay.isSome then s.updTile m.src.vt (fun t => t.replaySend m)
  else (s.log m.src.vt {
    ty := 9, obj := m.src.idx, msg := some m
    bytes := sentPayload m (Sparse.get (s.tile m.src.vt).im.ends m.src.idx).sentSeq }).emit m

/-! Receiving. -/

/-- A message of the fabric holds back a later one of its channel: a control message every one, data one that is data too
or comes once the route is open (R43, R267). -/
def Msg.before (o m : Msg) : Bool :=
  decide (o.src = m.src) && decide (o.dst = m.dst) && (!o.isData || m.isData || !o.parked)

/-- The message at a place of the fabric, if it may arrive: it stands at the tile of its vtile, it has its virtual
channels, no link of its route is missing, no earlier message of its channel holds it back (R43), and the vtile is not lost
(R340). -/
def State.arrivable (s : State) (n : Nat) : Option Msg :=
  match s.msgs[n]? with
  | none => none
  | some m =>
    if m.parked || m.back || isFar m.dst || (s.tile m.dst.vt).lost || decide (m.tile ≠ (s.tile m.dst.vt).ptile)
      || s.cutOff m || (s.msgs.take n).any (fun o => Machine.Msg.before o m) then none
    else some m

/-- The end-table entry of a vtile. -/
def VTile.endAt (t : VTile) (e : Nat) : End := Sparse.get t.im.ends e

/-- The owner of an end is FROZEN. -/
def VTile.ownerFrozen (t : VTile) (e : Nat) : Bool :=
  (t.endAt e).ov && decide ((t.proc (t.endAt e).owner.toNat).st = .frozen)

/-- A tile under a whole-tile freeze lets data that streams to it finish until it is quiescent (R97 step 5). -/
def VTile.letsIn (t : VTile) (m : Msg) : Bool :=
  m.isData && (match t.freeze with
    | some f => decide (f.stage = .draining)
    | none => true)

/-- The router holds a message back: for a tile under a whole-tile freeze everything but an acknowledgement and data that
streams (R43, R97); for an absent tenant what waits for its return (R102); for a frozen process what starts or ends a match
(R23); under R333 claims and data, but for data that a freeze waits for; in replay everything that is not presented from
the log. -/
def State.holds (s : State) (m : Msg) : Bool :=
  let t := s.tile m.dst.vt
  let act := s.active m.dst.vt
  if s.presenting then false
  else t.replay.isSome
    || (act && t.freeze.isSome && !m.kind.isAck && !t.letsIn m)
    || (!act && m.kind.forResident)
    || (act && t.freeze.isNone && t.ownerFrozen m.dst.idx && (m.kind.matches || m.kind.isAck))
    || (t.needsCommit && t.freeze.isNone && m.kind.claimOrData)

/-- The message at a place marked as held. -/
def State.markHeld (s : State) (n : Nat) : State := { s with msgs := s.msgs.modify n (fun m => { m with held := true }) }

/-- The fabric without the message at a place. -/
def State.takeMsg (s : State) (n : Nat) : State := { s with msgs := s.msgs.eraseIdx n }

end Sys2Proof.Machine
end

