-- ==== Sys2Proof/Machine/Rendezvous.lean ====
section
/-! DEFINITION. Ends, the rendezvous and the select: what each control message does, and how waiting operations complete
(R35 to R51, R84). -/

namespace Sys2Proof.Machine

/-! Statuses (R44). -/

/-- OK. -/
def stOk : Nat := 0
/-- TIMEOUT. -/
def stTimeout : Nat := 1
/-- DEADLOCK. -/
def stDeadlock : Nat := 2
/-- PEER_GONE. -/
def stPeerGone : Nat := 3
/-- DROPPED. -/
def stDropped : Nat := 4
/-- CLOSED. -/
def stClosed : Nat := 5
/-- FULL. -/
def stFull : Nat := 6

/-- A status value: the code, the end or slot it names, and the bytes moved (R44). -/
def statusWord (code : Nat) (ev : Option Nat) (moved : Nat) : Word :=
  BitVec.ofNat 64 (code + (match ev with | some e => e * 256 + 65536 | none => 0) + moved * 2 ^ 32)

/-! Ends. -/

/-- The state with one end changed. -/
def State.updEnd (s : State) (k e : Nat) (f : End → End) : State :=
  s.updTile k (fun t => t.updIm (fun m => { m with ends := Sparse.upd m.ends e f }))

/-- An end of a vtile. -/
def State.endAt (s : State) (k e : Nat) : End := (s.tile k).endAt e

/-- The state an end without a match rests in: OFFERED while an offer of either side is recorded. -/
def End.rest (x : End) : EndState := if x.oo || x.po then .offered else .idle

/-- An end takes part in no match and no claim of its own. -/
def End.calm (x : End) : End :=
  { x with
    hold := false, wgo := false, claiming := false, claimWait := false, tent := false, due := false, peerLen := 0
    inbuf := none, land := 0, moved := 0, wrote := [] }

/-- The recorded peer offer is consumed. -/
def End.unrecord (x : End) : End := { x with po := false, psel := false, plen := 0 }

/-- An end is CLOSED or BROKEN. -/
def End.gone (x : End) : Bool := decide (x.st = .closed) || decide (x.st = .broken)

/-- The peer of an end: on another panel when xp is set. -/
def State.peerOf (s : State) (k e : Nat) : EndRef :=
  let x := s.endAt k e
  { vt := if x.xp then farKey x.pvt.toNat else k / 65536 * 65536 + x.pvt.toNat, idx := x.pend.toNat }

/-- An end sends its peer a control message or data. -/
def State.say (s : State) (k e : Nat) (m : MsgKind) : State :=
  (s.send { src := { vt := k, idx := e }, dst := s.peerOf k e, kind := m }).updEnd k e
    (fun x => { x with sentSeq := x.sentSeq + 1 })

/-- An end's own offer is withdrawn. -/
def State.withdraw (s : State) (k e : Nat) : State :=
  if (s.endAt k e).oo then
    (s.updEnd k e (fun x => { x with oo := false, st := if x.st = .offered then (if x.po then .offered else .idle) else x.st })).say
      k e .withdrawal
  else s

/-- An end makes its own offer. -/
def State.makeOffer (s : State) (k e : Nat) (psel : Bool) (plen : BitVec 11) : State :=
  (s.updEnd k e (fun x => { x with st := .offered, oo := true })).say k e (.offer psel plen)

/-! Waiting operations. -/

/-- A deadline has passed (R46). -/
def State.past (s : State) (w : Wait) : Bool := w.timed && decide (w.deadline.toNat ≤ s.time.toNat)

/-- The guards of a select in ascending order. -/
def Wait.guards (w : Wait) : List Nat :=
  ((List.range 64).filter (fun i => (w.endMask &&& w.guardMask).getLsbD i)).map (w.base + ·)

/-- The usable guards of a select in rotation order, starting after the end last chosen (R47, R48). -/
def VTile.usable (t : VTile) (q : Nat) : List Nat :=
  let g := (t.proc q).wait.guards.filter (fun e => !(t.endAt e).gone)
  g.filter (fun e => decide ((t.proc q).lastEnd.toNat < e)) ++ g.filter (fun e => decide (e ≤ (t.proc q).lastEnd.toNat))

/-- A process is blocked in a plain transfer on an end, frozen or not. -/
def Proc.inTransfer (p : Proc) (e : Nat) : Bool := decide (p.wait.kind = .channel) && decide (p.wait.endIdx = e)

/-- A process is blocked in a select with a guard on an end. -/
def Proc.inSelect (p : Proc) (e : Nat) : Bool := decide (p.wait.kind = .select) && p.wait.guards.contains e

/-- The slot that owns an end. -/
def State.ownerOf (s : State) (k e : Nat) : Nat := (s.endAt k e).owner.toNat

/-- The wait of the process that owns an end. -/
def State.waitOf (s : State) (k e : Nat) : Wait := (s.procAt k (s.ownerOf k e)).wait

/-- A sendv that completes OK pops the pump it took its value from (R230). -/
def Proc.popSent (p : Proc) (w : Wait) : Proc :=
  match w.pump with
  | none => p
  | some n =>
    { p.updPump n Pump.popOne with
      v := Sparse.set p.v (28 + n) w.value }

/-- What a transfer that completes OK does to the registers and pumps of its process (R41, R230). -/
def Proc.deliver (p : Proc) (w : Wait) (v : Vec) : Proc :=
  match w.op with
  | .recv => p.wg w.dReg (dataReg (v.setWidth 64))
  | .recvv => p.wv w.dReg v
  | .sendv => p.popSent w
  | .send | .sendb | .recvb => p

/-- The type of the log entry of a completion (R332). -/
def logType (w : Wait) (code : Nat) : BitVec 8 :=
  if w.kind = .select then 3
  else if code ≠ stOk then 6
  else match w.op with
    | .recv | .recvv => 1
    | .recvb => 2
    | _ => 6

/-- The payload of the entry of a completion: the data received, the n bytes of a block behind their number, else the end
and the status (R332). -/
def donePayload (ty : BitVec 8) (ev : Option Nat) (status : Word) (bytes : List Byte) : List Byte :=
  if ty = 1 then bytes
  else if ty = 2 then payload [bytes.length] ++ bytes
  else payload [ev.getD 0, status.toNat]

/-- The blocked transfer or select of a process completes: its effect on the registers, then its status, then the
process goes on (R225, R230). -/
def State.chanDone (s : State) (k q : Nat) (code : Nat) (ev : Option Nat) (moved : Nat) (bytes : List Byte)
    (f : Proc → Proc) : State :=
  let w := (s.procAt k q).wait
  s.updTile k (fun t =>
    ((t.logEntry {
      ty := logType w code, slot := BitVec.ofNat 3 q, obj := ev.getD 0, value := statusWord code ev moved,
      bytes := donePayload (logType w code) ev (statusWord code ev moved) bytes }).updProc q
      (fun p => ((f p).wg w.sReg (dataReg (statusWord code ev moved))).complete)).boundaryPark q s.time)

/-- The bytes of a block that an output end moves: the lesser length of the two sides, where it knows the other one (R41). -/
def State.sendLen (s : State) (k e : Nat) : Nat :=
  let n := (s.endAt k e).peerLen
  let w := s.waitOf k e
  if n = 0 then w.len else min w.len n

/-- The flits of a transfer: its value, or the place, length and bytes of its block, read as the route opens; LAST_BYTE_WRITTEN
may read a unit of it again later in the window of R75. -/
def State.flitsOf (s : State) (k e : Nat) : MsgKind :=
  let w := s.waitOf k e
  .flits (s.endAt k e).kind w.value w.addr (s.sendLen k e)
    (if w.op = .sendb then s.readBytes k w.addr (s.sendLen k e) else [])

/-- An output end opens the route: it streams (R38, R39). -/
def State.openRoute (s : State) (k e : Nat) : State :=
  (s.updEnd k e (fun x => { x with st := .transferring, wgo := false })).say k e (s.flitsOf k e)

/-- An end claims the recorded peer offer for its waiting operation; `held` says that a select claims. -/
def State.claim (s : State) (k e : Nat) (held : Bool) : State :=
  let w := s.waitOf k e
  let wait := !s.past w
  (s.updEnd k e (fun x =>
    { x.unrecord with st := .claimed, claiming := true, claimWait := wait, peerLen := 64 * x.plen.toNat })).say k e
    (.claim held wait (BitVec.ofNat 11 (w.len / 64)))

/-- The lower party of two selects: ordered by vtile number, then by end index (R49). -/
def State.lower (s : State) (k e : Nat) : Bool :=
  let x := s.endAt k e
  let n := k % 65536
  decide (n < x.pvt.toNat) || (decide (n = x.pvt.toNat) && decide (e < x.pend.toNat))

/-- A select asks for one guard: a claim of a plain offer, or as the lower party a confirmation request (R48, R49). -/
def State.ask (s : State) (k q e : Nat) : State :=
  let wait := !s.past (s.procAt k q).wait
  let psel := (s.endAt k e).psel
  let t := s.updProcAt k q (fun p => { p with wait := { p.wait with asking := some e } })
  if psel then
    (t.updEnd k e (fun x =>
      { x.unrecord with st := .claimed, claiming := true, claimWait := wait, tent := true, peerLen := 0 })).say k e
      (.confirm wait)
  else t.claim k e true

/-- A guard that a select may ask for: a recorded plain offer not crossed by its own, or a guard offer when it is the
lower party (R40, R48, R49). -/
def State.askable (s : State) (k e : Nat) : Bool :=
  let x := s.endAt k e
  x.po && (if x.psel then s.lower k e else !x.oo)

/-- A refusal; with the wait bit the claimer's offer is recorded (R38). -/
def State.refuse (s : State) (k e : Nat) (wait psel : Bool) (plen : BitVec 11) : State :=
  (s.updEnd k e (fun x =>
    if wait then { x with po := true, psel := psel, plen := plen, st := if x.st = .idle then .offered else x.st } else x)).say
    k e .refusal

/-- A process withdraws all its offers. -/
def State.withdrawAll (s : State) (k q : Nat) : State :=
  let w := (s.procAt k q).wait
  if w.kind = .select then w.guards.foldl (fun t e => t.withdraw k e) s
  else if w.kind = .channel then s.withdraw k w.endIdx
  else s

/-- A select completes OK on a guard: it is the end last chosen, and every other guard offer is withdrawn (R48). -/
def State.selectDone (s : State) (k q e : Nat) : State :=
  let w := (s.procAt k q).wait
  let t := (s.updProcAt k q (fun p => { p with lastEnd := BitVec.ofNat 8 e })).chanDone k q stOk (some e) 0 [] id
  w.guards.foldl (fun t g => if g = e then t else t.withdraw k g) t

/-- A waiting operation ends by its deadline: its offers are withdrawn (R46). -/
def State.timeout (s : State) (k q : Nat) : State :=
  let w := (s.procAt k q).wait
  (s.withdrawAll k q).chanDone k q stTimeout (if w.kind = .select then none else some w.endIdx) 0 [] id

/-- The claim or request of an end is no longer open; the end rests. -/
def State.endAsk (s : State) (k e : Nat) : State :=
  s.updEnd k e (fun x => { x with claiming := false, tent := false, st := x.rest })

/-- A claim or confirmation request is applied at an end (R38, R46, R49). -/
def State.claimArrives (s : State) (m : Msg) (held wait : Bool) (plen : BitVec 11) : State :=
  let k := m.dst.vt
  let e := m.dst.idx
  let q := s.ownerOf k e
  let w := s.waitOf k e
  let x := s.endAt k e
  if x.gone || x.st = .unbound then s
  else if x.oo && x.ov && (x.st = .offered) then
    if w.kind = .select && w.asking.isSome then
      s.updProcAt k q (fun p => { p with wait := { p.wait with deferred := p.wait.deferred ++ [m] } })
    else if s.past w && !m.held then (s.timeout k q).refuse k e wait held plen
    else if w.kind = .select then
      ((s.updEnd k e (fun x =>
        { x.unrecord with
          st := .claimed, oo := false, hold := true, wgo := !x.input && held, peerLen := 64 * plen.toNat })).say k e
        (.grant true)).selectDone k q e
    else if x.input || held then
      (s.updEnd k e (fun x =>
        { x.unrecord with st := .claimed, oo := false, wgo := !x.input && held, peerLen := 64 * plen.toNat })).say k e
        (.grant false)
    else
      ((s.updEnd k e (fun x => { x.unrecord with oo := false, peerLen := 64 * plen.toNat })).say k e
        (.grant false)).openRoute k e
  else s.refuse k e wait held plen

/-- A claim message as its fields. -/
def State.applyClaim (s : State) (m : Msg) : State :=
  match m.kind with
  | .claim held wait plen => s.claimArrives m held wait plen
  | .confirm wait => s.claimArrives m true wait 0
  | _ => s

/-- The claims a select deferred are taken as fresh ones, in the order they were applied (R48). -/
def State.takeDeferred (s : State) (k q : Nat) (l : List Msg) : State :=
  l.foldl State.applyClaim
    (s.updProcAt k q (fun p => { p with wait := { p.wait with asking := none, deferred := [] } }))

/-- A select goes on: it asks for its next ready guard; with none, it makes its guard offers, or ends by its deadline
(R46, R48). After a refused claim the rotation starts again from its beginning, so a guard that became ready meanwhile and
lies earlier in it comes before the later ones: the model's choice, for R48 does not say (log entry 94). -/
def State.selectNext (s : State) (k q : Nat) : State :=
  let p := s.procAt k q
  if p.wait.kind ≠ .select || p.wait.asking.isSome then s
  else
    match ((s.tile k).usable q).find? (s.askable k) with
    | some e => s.ask k q e
    | none =>
      if s.past p.wait then s.timeout k q
      else ((s.tile k).usable q).foldl (fun t e => if (t.endAt k e).oo then t else t.makeOffer k e true 0) s

/-- Both sides have offers outstanding: the crossing rule decides whether this side claims (R40, R49). -/
def State.cross (s : State) (k e : Nat) : State :=
  let x := s.endAt k e
  let w := s.waitOf k e
  if w.kind = .select then
    if x.psel && s.lower k e && w.asking.isNone then s.ask k x.owner.toNat e else s
  else if x.psel || x.input then s.claim k e false
  else s

/-- A peer offer is recorded at an IDLE end, or at one with its own offer out; elsewhere it has no effect (R6, R38). -/
def State.offerArrives (s : State) (m : Msg) (psel : Bool) (plen : BitVec 11) : State :=
  let k := m.dst.vt
  let e := m.dst.idx
  let x := s.endAt k e
  let t := s.updEnd k e (fun x => { x with po := true, psel := psel, plen := plen, st := .offered })
  if x.st = .idle then t
  else if x.st = .offered && x.oo then t.cross k e
  else s

/-- A grant or a confirmation is applied (R38); one that reaches an absent tenant is recorded, and its transfer streams after
the tenant returns (R102). -/
def State.grantArrives (s : State) (m : Msg) (held : Bool) : State :=
  let k := m.dst.vt
  let e := m.dst.idx
  let x := s.endAt k e
  let q := x.owner.toNat
  if !x.claiming then s
  else
    let t := s.updEnd k e (fun x => { x.unrecord with claiming := false, tent := false, oo := false })
    if (s.waitOf k e).kind = .select then
      let d := (s.waitOf k e).deferred
      ((t.updEnd k e (fun x => { x with hold := true, wgo := !x.input && held })).selectDone k q e |> fun u =>
        d.foldl State.applyClaim u)
    else if x.input then t
    else if held then t.updEnd k e (fun x => { x with wgo := true })
    else if s.active k then t.openRoute k e
    else t.updEnd k e (fun x => { x with due := true })

/-- The transfers granted while a tenant was absent stream (R102). -/
def State.openDue (s : State) (k : Nat) : State :=
  (((s.tile k).im.ends.filter (fun e => e.2.due)).map (fun e => e.1)).foldl
    (fun t e => (t.updEnd k e (fun x => { x with due := false })).openRoute k e) s

/-- A waiting operation is abandoned as if never issued: its offers are withdrawn, and the process parks for the faults
that waited (R84). -/
def State.abandonAt (s : State) (k q : Nat) : State :=
  (s.withdrawAll k q).updTile k (fun t => (t.updProc q Proc.abandon).boundaryPark q s.time)

/-- A blocked select that the refusal of its claim left without a next step goes on: one whose tenant was absent then
(R102). -/
def State.resumeSelect (s : State) (k q : Nat) : State :=
  let p := s.procAt k q
  if p.st = .blocked && p.wait.kind = .select && p.wait.asking.isNone then
    (s.takeDeferred k q p.wait.deferred).selectNext k q
  else s

/-- A refusal is applied: a select of which a handshake was dropped ends DROPPED, the operation is abandoned for an engine
fault, or ends by its deadline, or its claim becomes an offer and a select goes on; that of an absent tenant goes on when it
is resident again (R38, R46, R48, R84, R102, R233). -/
def State.refusalArrives (s : State) (m : Msg) : State :=
  let k := m.dst.vt
  let e := m.dst.idx
  let x := s.endAt k e
  let q := x.owner.toNat
  let w := s.waitOf k e
  if !x.claiming then s
  else if !(s.procAt k q).pendFault.isEmpty || s.past w || w.dropped.isSome then
    let t := s.updEnd k e (fun x => { x with claiming := false, tent := false, oo := x.oo || x.claimWait, st := .offered })
    let u := if (t.endAt k e).oo then t.withdraw k e else t.updEnd k e (fun x => { x with st := x.rest })
    (match w.dropped with
      | some g => u.chanDone k q stDropped (some g) 0 [] id
      | none => if (s.procAt k q).pendFault.isEmpty then u.timeout k q else u.abandonAt k q) |> fun v =>
      w.deferred.foldl State.applyClaim v
  else
    let t := s.updEnd k e (fun x => { x with claiming := false, tent := false, oo := true, st := .offered })
    if w.kind = .select then
      if s.active k then (t.takeDeferred k q w.deferred).selectNext k q
      else t.updProcAt k q (fun p => { p with wait := { p.wait with
        asking := none, deferred := p.wait.deferred.map (fun m => { m with held := true }) } })
    else if x.po then t.cross k e
    else t

/-- A withdrawal is applied (R38). -/
def State.withdrawalArrives (s : State) (m : Msg) : State :=
  s.updEnd m.dst.vt m.dst.idx (fun x =>
    let y := x.unrecord
    { y with st := if x.st = .offered then (if x.oo then .offered else .idle) else x.st })

/-- A go is applied (R38). -/
def State.goArrives (s : State) (m : Msg) (plen : BitVec 11) : State :=
  let x := s.endAt m.dst.vt m.dst.idx
  let t := s.updEnd m.dst.vt m.dst.idx (fun x => { x with wgo := false, peerLen := 64 * plen.toNat })
  if !x.wgo then s
  else if x.hold then t
  else t.openRoute m.dst.vt m.dst.idx

/-- Where data lands at an end and how much: as the waiting operation says, or with no owner left as it said (R38). -/
def State.landing (s : State) (k e : Nat) : Nat × Nat :=
  let x := s.endAt k e
  if x.ov then ((s.waitOf k e).addr, (s.waitOf k e).len) else (x.land, x.moved)

/-- The first flit is applied: data lands in the destination (R38). -/
def State.firstFlit (s : State) (n : Nat) (m : Msg) (len : Nat) : State :=
  let k := m.dst.vt
  let e := m.dst.idx
  let x := s.endAt k e
  let l := s.landing k e
  if x.st ≠ .claimed || !x.input || x.hold then s.takeMsg n
  else
    (s.takeMsg n).updEnd k e (fun x =>
      { x with st := .transferring, inbuf := some m, land := l.1, moved := min len l.2 })

/-- The bytes of a block as they land (R41). -/
def Msg.blockBytes (m : Msg) (n : Nat) : List Byte :=
  match m.kind with
  | .flits _ _ _ _ bytes => (bytes ++ List.replicate n 0).take n
  | _ => []

/-- The value of a word or vector transfer. -/
def Msg.valueOf (m : Msg) : Vec :=
  match m.kind with
  | .flits _ v _ _ _ => v
  | _ => 0

/-- The last byte of a transfer is written: the receiver completes OK and acknowledges; an owner that was killed
meanwhile leaves the end CLOSED (R38). -/
def State.lastByte (s : State) (k e : Nat) : State :=
  match (s.endAt k e).inbuf with
  | none => s
  | some m =>
    let x := s.endAt k e
    let bytes := if x.kind = 2 then Machine.Msg.blockBytes m x.moved else []
    let t := s.writeUnits k x.land x.wrote 0 bytes
    if !x.ov then
      (t.updEnd k e (fun x => { x.calm.unrecord with st := .closed, oo := false })).say k e .close
    else
      ((t.updEnd k e (fun x => { x.calm with st := x.rest, seq := x.seq + 1 })).say k e
        (.ack (if x.kind = 2 then x.moved else 0))).chanDone k x.owner.toNat stOk (some e)
        (if x.kind = 2 then x.moved else 0)
        (if x.kind = 2 then bytes else toBytes (if x.kind = 0 then 8 else 64) (Machine.Msg.valueOf m).toNat)
        (fun p => p.deliver p.wait (Machine.Msg.valueOf m))

/-- An acknowledgement is applied: the sender completes OK (R38). -/
def State.ackArrives (s : State) (m : Msg) (moved : Nat) : State :=
  let k := m.dst.vt
  let e := m.dst.idx
  let x := s.endAt k e
  if x.st ≠ .transferring || x.input then s
  else
    (s.updEnd k e (fun x => { x.calm with st := x.rest, seq := x.seq + 1 })).chanDone k x.owner.toNat stOk (some e) moved []
      (fun p => p.deliver p.wait 0)

/-- The peer of an end is gone: the end goes CLOSED or BROKEN, and an operation that waits on it completes with PEER_GONE;
a select goes on while a usable guard remains (R38, R50, R233). The end keeps no offer of either side, nor psel and plen: the
model's choice, for the rows of R38 name only hold and wgo (log entry 95). -/
def State.peerGone (s : State) (k e : Nat) (st : EndState) : State :=
  let x := s.endAt k e
  let q := x.owner.toNat
  let p := s.procAt k q
  let t := s.updEnd k e (fun x => { x.calm.unrecord with st := st, oo := false })
  if !x.ov || x.hold then t
  else if p.inTransfer e then t.chanDone k q stPeerGone (some e) 0 [] id
  else if p.inSelect e then
    if p.wait.asking = some e && p.wait.dropped.isSome then t.chanDone k q stDropped p.wait.dropped 0 [] id
    else if ((t.tile k).usable q).isEmpty then
      (t.chanDone k q stPeerGone (some e) 0 [] id) |> fun u => p.wait.deferred.foldl State.applyClaim u
    else if p.wait.asking = some e then (t.takeDeferred k q p.wait.deferred).selectNext k q
    else t
  else t

/-- A close notice is applied; it waits for data that is still landing (R38, R43). -/
def State.closeArrives (s : State) (m : Msg) : State :=
  let x := s.endAt m.dst.vt m.dst.idx
  if x.st = .unbound || x.st = .closed then s else s.peerGone m.dst.vt m.dst.idx .closed

/-- Data on its way to an end has opened its route. -/
def State.streamsTo (s : State) (k e : Nat) : Bool :=
  s.msgs.any (fun m => m.isData && !m.parked && decide (m.dst = { vt := k, idx := e }))

/-- The owner of an end exits or is killed: offers withdrawn, close notice sent, CLOSED, ov cleared. An input end to which
data already streams closes when it has landed, where its operation said (R38, R224). -/
def State.closeEnd (s : State) (k e : Nat) : State :=
  let x := s.endAt k e
  let l := s.landing k e
  if x.st = .unbound then s
  else if x.inbuf.isSome then s.updEnd k e (fun x => { x with ov := false, claiming := false, tent := false })
  else if x.st = .claimed && x.input && !x.hold && s.streamsTo k e then
    s.updEnd k e (fun x => { x with ov := false, claiming := false, tent := false, land := l.1, moved := l.2 })
  else if x.st = .closed then s.updEnd k e (fun x => { x with ov := false })
  else
    ((s.withdraw k e).updEnd k e (fun x => { x.calm.unrecord with st := .closed, oo := false, ov := false })).say k e .close

/-- A process leaves its ends: every end it owns closes (R26). -/
def State.closeEnds (s : State) (k q : Nat) : State :=
  (((s.tile k).im.ends.filter (fun e => e.2.ov && decide (e.2.owner.toNat = q))).map (fun e => e.1)).foldl
    (fun t e => t.closeEnd k e) s

/-! Engine faults (R84). -/

/-- A blocked process may abandon its instruction at once: its wait is on an engine, a pump or a latch, or on a channel
with no claim granted, none of its own open, nothing streaming and no tentative commitment. -/
def State.abandonable (s : State) (k q : Nat) : Bool :=
  let w := (s.procAt k q).wait
  match w.kind with
  | .channel => decide ((s.endAt k w.endIdx).st = .offered)
  | .select => w.asking.isNone
  | _ => true

/-- A fault raised by an engine or pump for a slot, handled by the slot's state (R84, R22). -/
def State.engineFault (s : State) (k q : Nat) (r : FaultRec) : State :=
  let p := s.procAt k q
  let r := { r with slot := BitVec.ofNat 3 q, pc := p.pc.setWidth 32, time := s.time }
  match p.st with
  | .ready => s.updTile k (fun t => (t.recordFault r s.time).updProc q (fun p => p.park r.code r.aux))
  | .blocked =>
    let t := s.updProcAt k q (fun p => { p with pendFault := p.pendFault ++ [r] })
    if s.abandonable k q then t.abandonAt k q else t.updTile k (fun t => t.holdPage r)
  | .frozen => s.updTile k (fun t => (t.recordFault r s.time).updProc q (fun p => {
      p.countFault with
      efp := true, pwait := if r.code = codePage then some (p.pwait.getD (r.aux.setWidth 14)) else p.pwait }))
  | .parked | .exited | .empty => s.updTile k (fun t => t.recordFault r s.time)

end Sys2Proof.Machine
end

