-- ==== Sys2Proof/Machine/Latch.lean ====
section
/-! DEFINITION. Latches: arrivals, drops, leaves and waits on a tile, and what their messages do at the home and at the
members' tiles (R52 to R55, R236). -/

namespace Sys2Proof.Machine

/-! Sending. -/

/-- The place of a latch among the ends of a message: above the 256 channel ends. -/
def latIdx (e : Nat) : Nat := 256 + e

/-- The vtile at which a latch of a vtile's network is homed. -/
def State.latHome (s : State) (k e : Nat) : Nat := k / 65536 * 65536 + (Sparse.get (s.netOf k).latches e).home

/-- A tile sends the home of a latch a message. -/
def State.tellHome (s : State) (k e : Nat) (m : MsgKind) : State :=
  s.send { src := { vt := k, idx := latIdx e }, dst := { vt := s.latHome k e, idx := latIdx e }, kind := m }

/-- The state with a tile's record of a latch changed. -/
def State.updLatch (s : State) (k e : Nat) (f : LatchRec → LatchRec) : State :=
  s.updTile k (fun t => t.updIm (fun m => { m with recs := Sparse.upd m.recs e f }))

/-- A slot is a member of a latch. -/
def Proc.member (p : Proc) (e : Nat) : Bool := p.memb.getLsbD e

/-- A tile still hosts a member of a latch. -/
def VTile.hostsMember (t : VTile) (e : Nat) : Bool := (List.range 8).any (fun q => (t.proc q).member e)

/-- A slot's membership bit cleared. -/
def Proc.leave (p : Proc) (e : Nat) : Proc := { p with memb := p.memb &&& ~~~ (1#256 <<< e) }

/-- A latch declares a member of a vtile at a slot to which no initial process is placed: one that never leaves (R52, R260). -/
def State.emptyMember (s : State) (k e : Nat) : Bool :=
  let w := Sparse.get s.nets (k / 65536)
  (Sparse.get w.latches e).members.any (fun g => decide (g.1 = k % 65536) && (List.range 8).any (fun q =>
    g.2.getLsbD q && !(w.places.any (fun p => decide (p.vtile = g.1) && decide (p.slot = q)))))

/-- A slot of a vtile leaves a latch: whether the tile still hosts a member follows the memberships, unless a declared member
has no process. -/
def State.leaveLatch (s : State) (k q e : Nat) : State :=
  (s.updProcAt k q (fun p => p.leave e)).updLatch k e (fun r =>
    { r with hosted := if s.emptyMember k e then r.hosted else none })

/-- A slot has arrived in the phase its tile last received. -/
def LatchRec.arrived (r : LatchRec) (q : Nat) : Bool := r.arr.getLsbD q

/-- A slot arrives at a latch: its arr bit is set and the arrival, or the drop, goes to the home (R53). -/
def State.arrive (s : State) (k q e : Nat) (m : MsgKind) : State :=
  (s.updLatch k e (fun r => { r with arr := r.arr ||| slotBit (BitVec.ofNat 3 q) })).tellHome k e m

/-- The tile keeps a record of a latch: bit 24 of it, as the loader or slotwr last wrote it, else a member is hosted there (R52,
R93, R263). -/
def VTile.hasRecord (t : VTile) (e : Nat) : Bool := (t.latch e).hosted.getD (t.hostsMember e)

/-- LATCH_MEMBER or LATCH_OVER: in aux the lp of the tile's record, 0 when the tile keeps none (R81). -/
def State.latchFlt (s : State) (code : BitVec 8) (e : Nat) : Flt :=
  { code := code, aux := if s.here.hasRecord e then (s.here.latch e).lp.setWidth 64 else 0, objk := 2
    obj := BitVec.ofNat 8 e }

/-- The checks of latarr and latdrop (R53). -/
def State.latching (s : State) (e : Nat) (f : State → State) : State :=
  if !s.proc.member e then s.raise (s.latchFlt codeLatchMember e)
  else if (s.here.latch e).arrived s.cur.who then s.raise (s.latchFlt codeLatchOver e)
  else f s

/-- latarr: the phase returned is the tile's lp at issue. -/
def execLatarr (d : Reg) (e : BitVec 8) (s : State) : Out :=
  .next (s.forProcess (.latarr d e) (s.latching e.toNat (fun t =>
    (t.arrive t.cur.vt t.cur.who e.toNat .latArrive).put d ((t.here.latch e.toNat).lp.setWidth 64))))

/-- latdrop. -/
def execLatdrop (e : BitVec 8) (s : State) : Out :=
  .next (s.forProcess (.latdrop e) (s.latching e.toNat (fun t =>
    ((t.leaveLatch t.cur.vt t.cur.who e.toNat).arrive t.cur.vt t.cur.who e.toNat .latDrop).next)))

/-- latwait (R55). -/
def execLatwait (d : Reg) (e : BitVec 8) (s : State) : Out :=
  .next (s.forProcess (.latwait d e)
    (if !s.proc.member e.toNat then s.raise (s.latchFlt codeLatchMember e.toNat)
     else s.awaits (.latwait d e) .latwait ((s.x d).setWidth 16 |>.setWidth 64)
       (s.here.latOver e.toNat ((s.x d).setWidth 16)) id))

/-- A process that ends leaves one latch: it drops, or, having arrived, sends a leave with its tile's lp (R26). -/
def State.quitLatch (s : State) (k q e : Nat) : State :=
  if (s.procAt k q).member e then
    let t := s.leaveLatch k q e
    if ((s.tile k).latch e).arrived q then t.tellHome k e (.latLeave ((s.tile k).latch e).lp)
    else t.arrive k q e .latDrop
  else s

/-- A process that ends leaves every latch of which it is a member. -/
def State.quitLatches (s : State) (k q : Nat) : State := (List.range 256).foldl (fun t e => t.quitLatch k q e) s

/-! At the home. -/

/-- The vtiles of which a member has counted in a phase, with one more. -/
def LatchHome.tiles (h : LatchHome) (j : Nat) : List Nat := if h.counted.contains j then h.counted else h.counted ++ [j]

/-- The home counts an arrival, and a drop with it: at the last one expected the phase advances and is multicast to the
tiles that hosted a member in it, each of which has counted; a latch that expects nobody any more is SPENT (R54). -/
def LatchHome.count (h : LatchHome) (j : Nat) (drop : Bool) : LatchHome × List Nat :=
  let d := if drop then h.d + 1 else h.d
  if h.e = 0 then (h, [])
  else if h.c + 1 = h.e then ({ e := h.e - d, c := 0, p := h.p + 1, d := 0 }, h.tiles j)
  else ({ h with c := h.c + 1, d := d, counted := h.tiles j }, [])

/-- A number put in its place in an ascending list. -/
def insertUp (n : Nat) : List Nat → List Nat
  | [] => [n]
  | m :: l => if n ≤ m then n :: m :: l else m :: insertUp n l

/-- A list in ascending order. -/
def ascending (l : List Nat) : List Nat := l.foldr insertUp []

/-- The state with a latch's home state replaced, and its phase multicast when it advanced, in ascending vtile order
(R271). -/
def State.setHome (s : State) (k e : Nat) (r : LatchHome × List Nat) : State :=
  (ascending r.2).foldl (fun u j =>
      u.send { src := { vt := k, idx := latIdx e }, dst := { vt := j, idx := latIdx e }, kind := .latPhase r.1.p })
    (s.updTile k (fun v => v.updIm (fun m => { m with homes := Sparse.set m.homes e r.1 })))

/-- The home state of a latch. -/
def State.homeAt (s : State) (k e : Nat) : LatchHome := Sparse.get (s.tile k).im.homes e

/-- An arrival or a drop from a vtile reaches the home of a latch. -/
def State.homeCounts (s : State) (k e j : Nat) (drop : Bool) : State := s.setHome k e ((s.homeAt k e).count j drop)

/-- A leave reaches the home: of the present phase it only shrinks the next one, of the phase before it counts as a
drop (R54). -/
def State.homeLeave (s : State) (k e j : Nat) (phase : BitVec 16) : State :=
  let h := s.homeAt k e
  if h.e = 0 then s
  else if phase = h.p then s.setHome k e ({ h with d := h.d + 1 }, [])
  else s.homeCounts k e j true

/-! At the members' tiles. -/

/-- A phase is applied at a tile: lp is the new phase, arr is clear, and latch waits are evaluated again (R54). -/
def State.phaseArrives (s : State) (k e : Nat) (phase : BitVec 16) : State :=
  s.updTile k (fun t =>
    (t.updIm (fun m => { m with recs := Sparse.upd m.recs e (fun r => { r with lp := phase, arr := 0 }) })).settle s.time)

end Sys2Proof.Machine
end

