-- ==== Sys2Proof/Machine/Complete.lean ====
section
/-! DEFINITION. The completion of commands of a launch queue, and the end of a network (R28, R309 to R311). -/

namespace Sys2Proof.Machine

/-! Ops and statuses of commands (R309, R311). -/

/-- LOAD. -/
def opLoad : Nat := 1
/-- START. -/
def opStart : Nat := 2
/-- STOP. -/
def opStop : Nat := 3
/-- SWITCH. -/
def opSwitch : Nat := 4
/-- EVICT. -/
def opEvict : Nat := 5
/-- WAIT-FOR. -/
def opWaitFor : Nat := 6

/-- A status of a completion: OK. -/
def doneOk : Nat := 0
/-- REFUSED. -/
def doneRefused : Nat := 1
/-- STOPPED. -/
def doneStopped : Nat := 2

/-- A command completes: its record waits to be written, in completion order (R310). -/
def QBlock.complete (b : QBlock) (c : Command) (status reason : Nat) (data : Word) : QBlock :=
  { b with
    begun := b.begun.filter (fun d => decide (d.idx ≠ c.idx))
    done := b.done ++ [{ idx := c.idx, tag := c.tag, op := c.op, status := status, reason := reason, data := data }]
    tags := b.tags.modify c.idx (fun e => (e.1, true)) }

/-- The command at a place has completed. -/
def QBlock.completed (b : QBlock) (i : Nat) : Bool := (b.tags[i]?.map (fun e => e.2)).getD false

/-- A begun command that waited for another one: a STOP for the end of its network, a WAIT-FOR for its target. -/
def QBlock.follow (b : QBlock) (c : Command) : QBlock :=
  if c.op = opStop && !(b.begun.any (fun d => decide (d.op = opStart) && decide (d.netid = c.netid))) then
    b.complete c doneOk 0 1
  else if c.op = opWaitFor && b.completed c.target then b.complete c doneOk 0 0
  else b

/-- What follows from a completion, in ring order. -/
def QBlock.followAll (b : QBlock) : QBlock := b.begun.foldl QBlock.follow b

/-- The state with one queue block changed. -/
def State.updQueue (s : State) (q : Nat) (f : QBlock → QBlock) : State := { s with queues := Sparse.upd s.queues q f }

/-- A command of a queue completes, and with it those that waited for it. -/
def State.completeCmd (s : State) (q : Nat) (c : Command) (status reason : Nat) (data : Word) : State :=
  s.updQueue q (fun b => (b.complete c status reason data).followAll)

/-! The end of a network. -/

/-- The state with one network changed; networks are keyed by partition and tenant. -/
def State.updNet (s : State) (n : Nat) (f : Network → Network) : State := { s with nets := Sparse.upd s.nets n f }

/-- Every slot of a vtile is EMPTY and its pool is empty. -/
def VTile.vacant (t : VTile) : Bool :=
  (List.range 8).all (fun q => decide ((t.proc q).st = .empty)) && t.im.pool.isEmpty

/-- A network has come to its end: finished (R28), or stopped; a lost vtile lets it end only by a STOP (R340). -/
def State.netOver (s : State) (n : Nat) : Bool :=
  let w := Sparse.get s.nets n
  (List.range w.nv).all (fun v =>
    let t := s.tile (n * 65536 + v)
    if t.lost then w.stopping else t.replay.isNone && t.vacant)

/-- A network that runs and has come to its end is resident no more, and its START completes (R28, R310). -/
def State.finish (s : State) (n : Nat) : State :=
  let w := Sparse.get s.nets n
  if w.resident && w.started && (w.stopping || decide (w.nv ≤ w.running.length)) && s.netOver n then
    let t := s.updNet n (fun w => { w with resident := false })
    match (Sparse.get s.queues w.queue).begun.find? (fun c => decide (c.op = opStart) && decide (c.netid = w.netid)) with
    | some c => t.completeCmd w.queue c (if w.stopping then doneStopped else doneOk) 0 s.time
    | none => t
  else s

/-- What follows the end of engine or pump work of a vtile, or of a process: waits that are over complete, slots become
free, and the network may be at its end. -/
def State.settleAt (s : State) (k : Nat) : State := (s.updTile k (fun t => t.settle s.time)).finish (k / 65536)

/-! Elements being written (R71, R97, R220, R223). -/

/-- An element of a copy or an output pump is being written. -/
def VTile.writing (t : VTile) : Bool :=
  t.im.copies.any (fun e => !e.2.wrote.isEmpty) || t.im.procs.any (fun e => e.2.pumps.any (fun u => !u.2.wrote.isEmpty))

/-- The elements being written at a vtile, of an owner and at a place that meet a condition, are written whole. -/
def State.finishWhere (s : State) (k : Nat) (f : Nat → Nat → Bool) : State :=
  if (s.tile k).writing then
    ((List.range 9).foldl (fun t q => (List.range 4).foldl (fun t p => t.finishDrain k f q p) t)
      ((List.range 16).foldl (fun t e => t.finishCopy k f e) s)).settleAt k
  else s

/-- Those of every agent of a vtile: what a whole-tile freeze waits for (R97). -/
def State.finishAll (s : State) (k : Nat) : State := s.finishWhere k (fun _ _ => true)

/-- Those of one slot. -/
def State.finishSlot (s : State) (k q : Nat) : State := s.finishWhere k (fun o _ => decide (o = q))

/-- The translation of a vtile changes: what is being written under an entry that goes is written whole first (R71). -/
def State.retable (s : State) (k : Nat) (f : VTile → VTile) : State :=
  let t := s.tile k
  let gone (a : Nat) : Bool := decide (wellLo ≤ a) && decide (t.entry (pageOf a) ≠ (f t).entry (pageOf a))
  (s.finishWhere k (fun _ a => gone a || gone (a + 63))).updTile k f

end Sys2Proof.Machine
end

