-- ==== Sys2Proof/Machine/Process.lean ====
section
/-! DEFINITION. Processes: their start context, spawn and the pool, yield, exit and kill (R17 to R28, R237, R238). -/

namespace Sys2Proof.Machine

/-! Starting. -/

/-- The base of a slot's stack area (R19). -/
def stackBase (q : Nat) : Nat := 0x001C0000 + q * 0x4000

/-- The g registers of a starting process (R18). -/
def startRegs (q : Nat) (wellHi : Nat) (arg num : Word) : Sparse GReg :=
  [(2, mkCap (BitVec.ofNat 32 (stackBase q + 0x4000)) (BitVec.ofNat 32 (stackBase q))
      (BitVec.ofNat 32 (stackBase q + 0x4000)) (permL ||| permS ||| permLC ||| permSC ||| permE)),
   (3, mkCap (BitVec.ofNat 32 storeLo) (BitVec.ofNat 32 storeLo) (BitVec.ofNat 32 monLo)
      (permL ||| permS ||| permLC ||| permSC ||| permE)),
   (4, mkCap (BitVec.ofNat 32 wellLo) (BitVec.ofNat 32 wellLo) (BitVec.ofNat 32 wellHi) (permL ||| permS ||| permE))]
  ++ (if arg = 0 then [] else [(5, dataReg arg)]) ++ (if num = 0 then [] else [(6, dataReg num)])

/-- The context of a process that starts in a slot (R18). -/
def State.startProc (s : State) (k q : Nat) (e : PoolEntry) : Proc :=
  { g := startRegs q (s.wellHi k) e.arg e.num, pc := e.entry, st := .ready, pnum := e.num, prio := e.prio,
    rngk := rngH (Sparse.get (s.tile k).im.consts 16) e.num }

/-- A process starts in a slot. -/
def State.place (s : State) (k q : Nat) (e : PoolEntry) : State :=
  s.updTile k (fun t => t.setProc q (s.startProc k q e))

/-- The lowest-numbered EMPTY slot. -/
def VTile.emptySlot (t : VTile) : Option Nat := (List.range 8).find? (fun q => decide ((t.proc q).st = .empty))

/-- The oldest pool entry takes an EMPTY slot (R25), the lowest when several are EMPTY, which is the model's choice (log entry
117); under a whole-tile freeze its process is FROZEN with prior
state READY, as every READY slot is (R22, R97). -/
def State.poolTakes (s : State) (k : Nat) : State :=
  let t := s.tile k
  match t.im.pool, t.emptySlot with
  | e :: r, some q =>
    let u := (s.updTile k (fun t => t.updIm (fun m => { m with pool := r }))).place k q e
    if t.freeze.isSome then u.updProcAt k q (fun p => { p with st := .frozen, prior := .ready }) else u
  | _, _ => s

/-- Every slot free at the end of a tc is taken while the pool holds an entry (R25). -/
def State.poolFill (s : State) (k : Nat) : State := (List.range 8).foldl (fun t _ => t.poolTakes k) s

/-! spawn (R24, R237). -/

/-- The spawn counter would leave the vtile's range. -/
def State.spawnsOut (s : State) (k : Nat) : Bool :=
  decide ((s.tile k).im.spawnCtr.toNat = 2 ^ 32 * (k % 65536 + 1))

/-- The spawn counter moved on. -/
def State.countSpawn (s : State) (k : Nat) : State :=
  s.updTile k (fun t => t.updIm (fun m => { m with spawnCtr := m.spawnCtr + 1 }))

/-- The results of a spawn: on OK the child's number, and then the status (R237, R149). -/
def State.spawned (s : State) (d st : Reg) (num : Option Word) (ev : Option Nat) : State :=
  match num with
  | some n => (s.wx d n).put st (statusWord stOk ev 0)
  | none => s.put st (statusWord stFull none 0)

/-- A slot that becomes READY from the next tc (R24). -/
def State.markFresh (s : State) (k q : Nat) : State :=
  s.updTile k (fun t => { t with fresh := t.fresh ||| slotBit (BitVec.ofNat 3 q) })

/-- spawn. -/
def execSpawn (d a b x : Reg) (s : State) : Out :=
  .next (s.forProcess (.spawn d a b x)
    (let k := s.cur.vt
     let t := s.here
     let e : PoolEntry := {
       entry := ((s.x a).setWidth 18 &&& 0x3FFFC : BitVec 18), arg := s.x b, prio := s.proc.prio, num := t.im.spawnCtr }
     if s.spawnsOut k then s.spawned d x none none
     else
       match (if t.im.pool.isEmpty then t.emptySlot else none) with
       | some q => (((s.countSpawn k).place k q e).markFresh k q).spawned d x (some e.num) (some q)
       | none =>
         if t.im.pool.length < 8 then
           ((s.countSpawn k).updHere (fun t => t.updIm (fun m => { m with pool := m.pool ++ [e] }))).spawned d x
             (some e.num) none
         else s.spawned d x none none))

/-! Ending. -/

/-- A process leaves the waiter sets of the outstanding pages; a page whose record its access queued is resolved, and
the remaining waiters are to be released (R72, R89). -/
def VTile.leavePages (t : VTile) (q : BitVec 3) : VTile :=
  let gone := t.pages.filter (fun r => decide (r.by_ = q))
  { t with
    pages := (t.pages.filter (fun r => decide (r.by_ ≠ q))).map
      (fun r => { r with waiters := r.waiters &&& ~~~ slotBit q })
    releases := t.releases ++ gone.flatMap (fun r =>
      ((List.range 8).map (BitVec.ofNat 3)).filter (fun w => r.waiters.getLsbD w.toNat && decide (w ≠ q))) }

/-- Input-pump bindings are released (R26). -/
def Proc.dropInputs (p : Proc) : Proc := { p with pumps := p.pumps.filter (fun e => e.2.out) }

/-- Appended output-pump elements not yet written are discarded (R27). -/
def Proc.dropOutputs (p : Proc) : Proc :=
  { p with pumps := p.pumps.map (fun e => (e.1, { e.2 with pend := [] })) }

/-- The accumulators of a slot that are not in flight are freed (R26). -/
def VTile.freeIdle (t : VTile) (q : Nat) : VTile :=
  ((List.range 8).map (BitVec.ofNat 3)).foldl (fun t c => if t.owns q c && !t.inFlight c then t.freeAcc q c else t) t

/-- The outstanding copies of a slot are aborted (R27, R223). -/
def VTile.abortCopies (t : VTile) (q : Nat) (time : Word) : VTile :=
  (List.range 16).foldl (fun t e =>
    if (Sparse.get t.im.copies e).ofSlot q then t.abortCopy e time else t) t

/-- The aborted copies of a slot are its own no more: an EXITED slot that is killed waits for its matrix commands only
(R22, R248). -/
def VTile.disownCopies (t : VTile) (q : Nat) : VTile :=
  t.updIm (fun m => { m with copies := m.copies.map (fun e => (e.1, if e.2.ofSlot q then { e.2 with loose := true } else e.2)) })

/-- The effects of exit, in the order of R26: the slot goes EXITED, and EMPTY at once without outstanding work. -/
def State.endProc (s : State) (k q : Nat) (kill : Bool) : State :=
  let s1 := ((if kill then s.finishSlot k q else s).closeEnds k q).quitLatches k q
  let s2 := s1.updTile k (fun t =>
    let t := (t.updProc q (fun p => { p.dropInputs with
      st := .exited, prior := .empty, efp := false, bySlotctl := false, preempt := false, wait := {}, pwait := none, pendFault := [],
      probe := none, resume := false, ageing := 0, aged := false })).freeIdle q
    if kill then ((t.updProc q Proc.dropOutputs).abortCopies q s.time).leavePages (BitVec.ofNat 3 q) else t)
  s2.settleAt k

/-- A kill of a PARKED, FROZEN or EXITED slot; of any other no effect (R22, R248). -/
def State.kill (s : State) (k q : Nat) : State :=
  match (s.procAt k q).st with
  | .parked | .frozen => s.endProc k q true
  | .exited =>
    ((s.finishSlot k q).updTile k (fun t =>
      (((t.updProc q Proc.dropOutputs).abortCopies q s.time).disownCopies q).leavePages (BitVec.ofNat 3 q))).settleAt k
  | _ => s

/-- The unanswered end of a network or a tenant: every process of a vtile is killed whatever its state, and its pool
discarded (R310). -/
def State.killAll (s : State) (k : Nat) : State :=
  ((List.range 8).foldl (fun t q => if (t.procAt k q).st = .empty then t else t.endProc k q true)
    (s.updTile k (fun t => t.updIm (fun m => { m with pool := [] })))).settleAt k

/-- exit (R26, R238). -/
def execExit (s : State) : Out := .next (s.forProcess .exit (s.endProc s.cur.vt s.cur.who false))

/-- yield (R32, R238). -/
def execYield (s : State) : Out := .next (s.forProcess .yield s.next)

end Sys2Proof.Machine
end

