-- ==== Sys2Proof/Machine/Arrive.lean ====
section
/-! DEFINITION. The arrival of a message: held, or taken, logged and applied; and the messages of the fabric as events of
the part (R38 to R55, R102, R333, R334). -/

namespace Sys2Proof.Machine

/-- The event that applies a message of a kind. -/
def eventOf (m : MsgKind) : Instr :=
  match m with
  | .offer _ _ => .offerArrives
  | .claim _ _ _ => .claimArrives
  | .confirm _ => .confirmationRequestArrives
  | .grant _ => .grantArrives
  | .refusal => .refusalArrives
  | .withdrawal => .withdrawalArrives
  | .go _ => .goArrives
  | .flits _ _ _ _ _ => .firstFlitArrives
  | .ack _ => .acknowledgementArrives
  | .close => .closeNoticeArrives
  | .latArrive => .latchArrivalMsg
  | .latDrop => .latchDropMsg
  | .latLeave _ => .latchLeaveMsg
  | .latPhase _ => .phaseMulticastApplied

/-- What a message taken from the fabric does; data is applied by `firstFlit`. -/
def State.applyMsg (s : State) (m : Msg) : State :=
  let k := m.dst.vt
  let e := m.dst.idx - 256
  match m.kind with
  | .offer psel plen => s.offerArrives m psel plen
  | .claim held wait plen => s.claimArrives m held wait plen
  | .confirm wait => s.claimArrives m true wait 0
  | .grant held => s.grantArrives m held
  | .refusal => s.refusalArrives m
  | .withdrawal => s.withdrawalArrives m
  | .go plen => s.goArrives m plen
  | .flits _ _ _ _ _ => s
  | .ack moved => s.ackArrives m moved
  | .close => s.closeArrives m
  | .latArrive => s.homeCounts k e m.src.vt false
  | .latDrop => s.homeCounts k e m.src.vt true
  | .latLeave phase => s.homeLeave k e m.src.vt phase
  | .latPhase phase => s.phaseArrives k e phase

/-- The log entry of a message applied: a latch multicast is type 5; the others are the model's own (log entry 19). -/
def State.logMsg (s : State) (m : Msg) : State :=
  let a := { s.arg with n := 0 }
  match m.kind with
  | .latPhase p =>
    s.log m.dst.vt { ty := 5, obj := m.dst.idx - 256, value := p.setWidth 64, bytes := payload [m.dst.idx - 256, p.toNat],
                     event := some (eventOf m.kind, a), msg := some m }
  | _ => s.log m.dst.vt { obj := m.dst.idx, event := some (eventOf m.kind, a), msg := some m }

/-- A close notice waits for data that is still landing at its end, and is applied after it. -/
def State.waitsForLanding (s : State) (m : Msg) : Bool :=
  decide (m.kind = .close) && (s.endAt m.dst.vt m.dst.idx).inbuf.isSome

/-- The message at a place of the fabric is applied. -/
def State.take (s : State) (n : Nat) (m : Msg) : State :=
  match m.kind with
  | .flits _ _ _ len _ => (s.logMsg m).firstFlit n m len
  | _ => if s.waitsForLanding m then s else ((s.logMsg m).takeMsg n).applyMsg m

/-- A held message is marked so; a claim only while the deadline of the operation it meets has not passed (R23, R46). -/
def State.hold (s : State) (n : Nat) (m : Msg) : State :=
  if m.kind.claimOrData && s.past (s.waitOf m.dst.vt m.dst.idx) && !m.isData then s else s.markHeld n

/-- The message at a place of the fabric arrives: it is held, or applied. -/
def State.receive (s : State) (n : Nat) : State :=
  match s.arrivable n with
  | none => s
  | some m => if s.holds m then s.hold n m else s.take n m

/-- An arrival event: the message at the place its operand names, if it is of the event's kind. -/
def State.arrival (s : State) (i : Instr) : State :=
  match s.msgs[s.arg.n]? with
  | some m => if eventOf m.kind = i then s.receive s.arg.n else s
  | none => s

/-- One held message, wherever it stands now, is applied if it may. -/
def State.deliverHeld (s : State) (m : Msg) : State :=
  match s.msgs.findIdx? (fun o => decide (o = m)) with
  | none => s
  | some n =>
    match s.arrivable n with
    | none => s
    | some o => if s.holds o then s else s.take n o

/-- The held messages of some ends are applied in the order they were sent (R23, R43). -/
def State.deliverAll (s : State) (f : Msg → Bool) : State :=
  (s.msgs.filter (fun m => m.held && f m)).foldl State.deliverHeld s

/-- An operation may end by its deadline: a plain one while its offer stands and nobody holds a claim of it, a select
while it asks for no guard (R46). -/
def State.mayExpire (s : State) (k q : Nat) : Bool :=
  let p := s.procAt k q
  let x := s.endAt k p.wait.endIdx
  decide (p.st = .blocked) && s.past p.wait &&
    (match p.wait.kind with
     | .channel => x.oo && decide (x.st = .offered) && !x.claiming
     | .select => p.wait.asking.isNone
     | _ => false)

/-- An operation whose deadline has passed ends by it; the event enters the log. -/
def State.expire (s : State) (k q : Nat) : State :=
  if s.mayExpire k q then
    (s.log k { slot := BitVec.ofNat 3 q, event := some (.deadlinePasses, { k := k, q := q }) }).timeout k q
  else s

/-- A claim is held for a blocked operation of a process, in its router or among those that its select deferred: the
operation's deadline no longer ends it (R23). -/
def State.claimHeld (s : State) (k q : Nat) : Bool :=
  s.msgs.any (fun m => m.held && m.kind.isClaim && decide (m.dst.vt = k) && decide (s.ownerOf k m.dst.idx = q)
    && ((s.procAt k q).inTransfer m.dst.idx || (s.procAt k q).inSelect m.dst.idx))
  || ((s.procAt k q).wait.asking.isNone && !(s.procAt k q).wait.deferred.isEmpty)

/-- The operations of the processes of a running tile whose deadlines have passed end, in the first tc in which they have
(R46). -/
def State.expireTile (s : State) (k : Nat) : State :=
  if (s.tile k).replay.isSome || (s.tile k).lost then s else (List.range 8).foldl (fun t q => t.expire k q) s

/-- Package time has moved on: deadlines that have passed end their operations before anything else happens (R46). -/
def State.expireAll (s : State) : State := s.running.foldl State.expireTile s

/-- A vtile takes nothing now but what its log presents. -/
def State.replaying (s : State) (k : Nat) : Bool := (s.tile k).replay.isSome && !s.presenting

/-! The events. -/

/-- OFFER_ARRIVES. -/
def execOfferArrives (s : State) : Out := .next (s.arrival .offerArrives)
/-- CLAIM_ARRIVES. -/
def execClaimArrives (s : State) : Out := .next (s.arrival .claimArrives)
/-- CONFIRMATION_REQUEST_ARRIVES. -/
def execConfirmationRequestArrives (s : State) : Out := .next (s.arrival .confirmationRequestArrives)
/-- GRANT_ARRIVES. -/
def execGrantArrives (s : State) : Out := .next (s.arrival .grantArrives)
/-- REFUSAL_ARRIVES. -/
def execRefusalArrives (s : State) : Out := .next (s.arrival .refusalArrives)
/-- WITHDRAWAL_ARRIVES. -/
def execWithdrawalArrives (s : State) : Out := .next (s.arrival .withdrawalArrives)
/-- GO_ARRIVES. -/
def execGoArrives (s : State) : Out := .next (s.arrival .goArrives)
/-- FIRST_FLIT_ARRIVES. -/
def execFirstFlitArrives (s : State) : Out := .next (s.arrival .firstFlitArrives)
/-- ACKNOWLEDGEMENT_ARRIVES. -/
def execAcknowledgementArrives (s : State) : Out := .next (s.arrival .acknowledgementArrives)
/-- CLOSE_NOTICE_ARRIVES. -/
def execCloseNoticeArrives (s : State) : Out := .next (s.arrival .closeNoticeArrives)
/-- LATCH_ARRIVAL_MSG. -/
def execLatchArrivalMsg (s : State) : Out := .next (s.arrival .latchArrivalMsg)
/-- LATCH_DROP_MSG. -/
def execLatchDropMsg (s : State) : Out := .next (s.arrival .latchDropMsg)
/-- LATCH_LEAVE_MSG. -/
def execLatchLeaveMsg (s : State) : Out := .next (s.arrival .latchLeaveMsg)
/-- PHASE_MULTICAST_APPLIED. -/
def execPhaseMulticastApplied (s : State) : Out := .next (s.arrival .phaseMulticastApplied)

/-- Data with one 8-byte unit of its block read again at the source, at which it still streams (R41, R75). -/
def State.reread (s : State) (m : Msg) (u : Nat) : Msg :=
  match m.kind with
  | .flits kind v addr len bytes =>
    if decide (m.src.vt < 2 ^ 60) && decide ((s.endAt m.src.vt m.src.idx).st = .transferring)
        && (s.tile m.src.vt).replay.isNone && decide (8 * u < bytes.length) then
      let l := bytes.take (8 * u) ++ s.readBytes m.src.vt (addr + 8 * u) 8 ++ bytes.drop (8 * u + 8)
      { m with kind := .flits kind v addr len l }
    else m
  | _ => m

/-- One 8-byte unit of a block that lands is written ahead of the last byte (R41, R75). -/
def State.landUnit (s : State) (k e : Nat) (m : Msg) (u : Nat) : State :=
  let x := s.endAt k e
  if x.kind ≠ 2 || x.moved ≤ 8 * u then s
  else (s.writeUnits k (x.land + 8 * u) x.wrote u (unitOf (Machine.Msg.blockBytes m x.moved) u)).updEnd k e
    (fun x => { x with wrote := u :: x.wrote })

/-- The receiver of landing data is frozen on its own: its rendezvous does not complete before the thaw (R23). -/
def State.landsFrozen (s : State) (k e : Nat) : Bool := (s.tile k).freeze.isNone && (s.tile k).ownerFrozen e

/-- LAST_BYTE_WRITTEN: the last byte of the data landing at an end is written (R38); with c = 1 unit j of its block is read
again at the source, with c = 2 it is written ahead; with c = 3 unit j of the data at place n of the fabric is read again. A
tile in replay takes only what its log presents. -/
def execLastByteWritten (s : State) : Out :=
  let k := s.arg.k
  let e := s.arg.e
  if s.arg.c = 3 then .next (s.updMsg s.arg.n (fun m => s.reread m s.arg.j))
  else
  match (s.endAt k e).inbuf with
  | none => .next s
  | some m =>
    if s.replaying k || (s.arg.c ≠ 1 && s.wellWaits k (s.endAt k e).land) then .next s
    else if s.arg.c = 0 && s.landsFrozen k e && !s.presenting then .next s
    else if s.arg.c = 1 then
      .next (if s.presenting then s else s.updEnd k e (fun x => { x with inbuf := some (s.reread m s.arg.j) }))
    else
      let t := s.log k { obj := e, event := some (.lastByteWritten, s.arg), msg := some m }
      .next (if s.arg.c = 2 then t.landUnit k e m s.arg.j else t.lastByte k e)

/-- DEADLINE_PASSES: a deadline of a blocked process has passed (R46). -/
def execDeadlinePasses (s : State) : Out :=
  let k := s.arg.k
  if s.replaying k then .next s
  else .next (s.expire k s.arg.q)

/-! Routers. -/


/-- A tile's router holds the messages for the vtile that has left it: the map is being written (R336 step 5). -/
def State.mapping (s : State) (p : Nat) : Bool :=
  s.rel.rotations.any (fun e => match e.2 with
    | some x => decide (x.from_ = p) && decide (x.stage = .mapping)
    | none => false)

/-- A message that stands at a router which its vtile has left. -/
def State.astray (s : State) (m : Msg) : Bool :=
  !m.back && !isFar m.dst && decide (m.tile ≠ (s.tile m.dst.vt).ptile)

/-- A message forwarded to a tile with one hop more; at hop count 4 it returns to its source (R43). -/
def Msg.forward (m : Msg) (t : Nat) : Msg := { m with tile := t, hop := m.hop + 1, back := decide (4 ≤ m.hop + 1) }

/-- STUB_FORWARD: a message at the router of a tile its vtile has left is forwarded to the new tile; one at a router
without a stub for it returns to its source (R43). -/
def execStubForward (s : State) : Out :=
  match s.msgs[s.arg.n]? with
  | some m =>
    if !s.astray m || s.mapping m.tile then .next s
    else
      match (Sparse.get s.ptiles m.tile).stub with
      | some t => .next (s.updMsg s.arg.n (fun m => Machine.Msg.forward m t))
      | none => .next (s.updMsg s.arg.n (fun m => { m with back := true }))
  | none => .next s

/-- MESSAGE_RETURNED_TO_SOURCE: the source resolves the vtile afresh and sends the message again, in its place in the
order (R43). -/
def execMessageReturnedToSource (s : State) : Out :=
  match s.msgs[s.arg.n]? with
  | some m =>
    if m.back then
      .next (s.updMsg s.arg.n (fun m => { m with tile := (s.tile m.dst.vt).ptile, hop := 0, back := false }))
    else .next s
  | none => .next s

/-! Delivery failures (R45). -/

/-- A saturating counter. -/
def satInc {w : Nat} (v : BitVec w) : BitVec w := if v = BitVec.allOnes w then v else v + 1

/-- The state with one physical tile changed. -/
def State.updPTile (s : State) (p : Nat) (f : PTile → PTile) : State := { s with ptiles := Sparse.upd s.ptiles p f }

/-! Reports (R341). -/

/-- A report of a vtile at its tile. -/
def State.reportOf (s : State) (k : Nat) (ty : BitVec 8) (t0 : Word) (aux : Word) : Report :=
  let t := s.tile k
  { ty := ty, tenant := BitVec.ofNat 8 t.tenant, vtile := BitVec.ofNat 16 t.num, part := BitVec.ofNat 8 t.part,
    ptile := BitVec.ofNat 16 t.ptile, t0 := t0, t1 := s.time, aux := aux }

/-- A report takes the next number and waits to be written. -/
def State.report (s : State) (r : Report) : State :=
  { s with rel := { s.rel with
      made := s.rel.made + 1
      waiting := s.rel.waiting ++ [{ r with rseq := s.rel.made + 1 }] } }

/-- Two reports of type 4 of one vtile within 1 ms. -/
def Report.merges (a b : Report) : Bool :=
  decide (a.ty = 4) && decide (a.tenant = b.tenant) && decide (a.vtile = b.vtile) && decide (a.part = b.part)
    && decide (b.t0.toNat < a.t0.toNat + 1000000)

/-- A report of a dropped transfer: merged into a waiting one, or of its own. -/
def State.reportDrop (s : State) (k : Nat) : State :=
  let r := s.reportOf k 4 s.time 0
  if s.rel.waiting.any (fun a => a.merges r) then
    { s with rel := { s.rel with
        waiting := s.rel.waiting.map (fun a => if a.merges r then { a with count := a.count + 1, t1 := s.time } else a) } }
  else s.report r

/-- A dropped transfer counts at a vtile's tile and is reported (R45, R339, R356). -/
def State.countDrop (s : State) (k : Nat) : State :=
  if s.presenting then s
  else (s.updPTile (s.tile k).ptile (fun p => { p with drop := satInc p.drop })).reportDrop k

/-- The length of the block that the peer of an end moves in the present match: that of the data landing, else what its
offer or claim said, else that of the sendb that waits on the other side. -/
def State.peerBlock (s : State) (k e : Nat) : Nat :=
  let p := s.peerOf k e
  let w := s.waitOf p.vt p.idx
  match (s.endAt k e).inbuf with
  | some m => (match m.kind with | .flits _ _ _ len _ => len | _ => 0)
  | none =>
    if 2 ^ 60 ≤ p.vt || (s.endAt k e).peerLen ≠ 0 then (s.endAt k e).peerLen
    else if w.kind = .channel && w.op = .sendb && w.endIdx = p.idx then w.len else 0

/-- The bytes n of the block transfer of an input end's match: the lesser length of its two sides (R41); 0 while the
other side has no transfer yet (log entry 97). -/
def State.blockLen (s : State) (k e : Nat) : Nat :=
  let w := s.waitOf k e
  let x := s.endAt k e
  if x.ov then (if w.kind = .channel && w.op = .recvb && w.endIdx = e then min (s.peerBlock k e) w.len else 0)
  else if x.kind = 2 && x.input then min (s.peerBlock k e) x.moved else 0

/-- One side of a match that failed: the end goes IDLE, and the operation that waits on it completes with DROPPED; the n
bytes of a recvb's destination are zeroed, a select ends as a whole (R45, R233). A select with a claim of its own open on
another guard withdraws its offers at once and ends with the answer: a refusal ends it DROPPED, a grant is final and ends it
OK, as R46 has it for a deadline (the model's choice, log entry 114). -/
def State.dropAt (s : State) (k e n : Nat) : State :=
  let x := s.endAt k e
  let q := x.owner.toNat
  let p := s.procAt k q
  let s1 := s.updEnd k e (fun x => { x.calm.unrecord with st := .idle, oo := false })
  let s2 := s1.countDrop k
  if x.st = .unbound then s
  else if x.gone then s.countDrop k
  else if !x.ov then (s2.writeBytes k x.land (List.replicate n 0)).closeEnd k e
  else if p.inTransfer e then
    (s2.writeBytes k p.wait.addr (List.replicate n 0)).chanDone k q stDropped (some e) 0 [] id
  else if p.inSelect e then
    let t := p.wait.guards.foldl (fun t g => if g = e then t else t.withdraw k g) s2
    p.wait.deferred.foldl State.applyClaim
      (if p.wait.asking.isNone || p.wait.asking = some e then t.chanDone k q stDropped (some e) 0 [] id
       else t.updProcAt k q (fun p => { p with wait := { p.wait with dropped := some e, deferred := [] } }))
  else s2

/-- Two ends belong to one channel, in either direction. -/
def onChannel (a b : EndRef) (m : Msg) : Bool :=
  (decide (m.src = a) && decide (m.dst = b)) || (decide (m.src = b) && decide (m.dst = a))

/-- One side of a failed match that stands on this panel, logged at its vtile as an event of that side alone. -/
def State.dropSide (s : State) (r : EndRef) (n : Nat) : State :=
  if 2 ^ 60 ≤ r.vt then s
  else (s.log r.vt { obj := r.idx, event := some (.deliveryFails, { bad := [(r.vt, r.idx)], j := n }) }).dropAt r.vt r.idx n

/-- A codeword without the flits of some messages; with none left it is no more awaited. -/
def FarMsg.without (c : FarMsg) (f : Msg → Bool) : Option FarMsg :=
  let l := c.flits.filter (fun x => !f x.msg)
  if l.isEmpty && !c.flits.isEmpty then none else some { c with flits := l }

/-- A match on a channel fails past its retries: its other messages fall with it, close notices apart (R45). -/
def State.dropChannel (s : State) (a b : EndRef) : State :=
  if s.replaying a.vt || s.replaying b.vt then s
  else
    let t : State := { s with
      msgs := s.msgs.filter (fun m => !onChannel a b m || decide (m.kind = MsgKind.close))
      farOut := s.farOut.filterMap (fun c => c.without (fun m => onChannel a b m && decide (m.kind ≠ MsgKind.close))) }
    (t.dropSide a (s.blockLen a.vt a.idx)).dropSide b (s.blockLen b.vt b.idx)

/-- The transfers of messages end DROPPED, each once; a close notice is no part of one (R45, R349). -/
def State.dropAll (s : State) (l : List Msg) : State :=
  (((l.filter (fun m => decide (m.kind ≠ MsgKind.close))).map (fun m => (m.src, m.dst))).eraseDups).foldl
    (fun t p => t.dropChannel p.1 p.2) s

/-- VIRTUAL_CHANNEL_FREED: a header flit that waited for a virtual channel gets it and moves on, and data for another panel
whose route is open leaves (R267); a message whose route a missing link cuts ends its match DROPPED (R45, R301). -/
def execVirtualChannelFreed (s : State) : Out :=
  match s.msgs[s.arg.n]? with
  | some m =>
    if s.cutOff m && !s.presenting then .next (s.dropChannel m.src m.dst) else .next ((s.advance s.arg.n).leave s.arg.n)
  | none => .next s

/-- LINK_LAYER_RETRY: a link of a tile's router repeats what was lost; only its counter shows it (R45, R356). -/
def execLinkLayerRetry (s : State) : Out := .next (s.updPTile s.arg.p (fun p => { p with retry := satInc p.retry }))

end Sys2Proof.Machine
end

