-- ==== Sys2Proof/Machine/Channel.lean ====
section
/-! DEFINITION. Channel instructions: transfers, select, probe, chst and chgive (R224 to R235). -/

namespace Sys2Proof.Machine

/-- CHAN_END: the reason, and the end concerned (R81, R227). -/
def chanFlt (reason e : Nat) : Flt :=
  { code := codeChanEnd, aux := BitVec.ofNat 64 reason, objk := 1, obj := BitVec.ofNat 8 e }

/-- A fault of a transfer names its end (R85, R227). -/
def onEnd (e : Nat) (f : Flt) : Flt := { f with objk := 1, obj := BitVec.ofNat 8 e }

/-- A slot owns an end (R224). -/
def End.ownedBy (x : End) (q : Nat) : Bool := x.ov && decide (x.owner.toNat = q)

/-- The end on which a slot holds a claim won by select, if any (R229). -/
def VTile.heldEnd (t : VTile) (q : Nat) : Option Nat :=
  (t.im.ends.find? (fun e => e.2.hold && e.2.ownedBy q)).map (fun e => e.1)

/-- The kind of end a transfer needs: word, vector or block (R228). -/
def XferOp.kind : XferOp → BitVec 2
  | .send | .recv => 0
  | .sendv | .recvv => 1
  | .sendb | .recvb => 2

/-- The direction a transfer needs. -/
def XferOp.isInput : XferOp → Bool
  | .recv | .recvv | .recvb => true
  | _ => false

/-- A transfer instruction: its operation, its end, its registers d, s and x, and whether it is a deadline form. -/
structure Xfer where
  op : XferOp := .send
  e : Nat := 0
  d : Reg := 0
  s : Reg := 0
  x : Reg := 0
  timed : Bool := false
  i : Instr
  deriving Repr

/-- The access of a block transfer: the user tile store, alignment 64 (R37, R65). -/
def blockAccess (g : GReg) (r : Reg) (len : Nat) (out : Bool) : Access :=
  { g := g, reg := r, size := len, perms := if out then permL else permS, align := 64, rd := out, wr := !out,
    storeOnly := true }

/-- The length of a block is refused (R37). -/
def badLength (len : Nat) : Bool := decide (len % 64 ≠ 0) || decide (len < 64) || decide (65536 < len)

/-- The faults of a transfer before its end's state is looked at, in the order of R229. -/
def State.xferFault (s : State) (z : Xfer) : Option Flt :=
  let x := s.here.endAt z.e
  let len := (s.x z.x).toNat
  if x.st = .unbound then some (chanFlt 1 z.e)
  else if !x.ownedBy s.cur.who then some (chanFlt 2 z.e)
  else if x.input ≠ z.op.isInput || x.kind ≠ z.op.kind then some (chanFlt 3 z.e)
  else if z.op.kind = 2 && badLength len then some (chanFlt 4 z.e)
  else if (s.here.heldEnd s.cur.who).any (fun h => h != z.e) then some (chanFlt 5 z.e)
  else if z.op.kind = 2 then
    match s.check (blockAccess (s.g z.d) z.d len (z.op = .sendb)) with
    | .error f => some (onEnd z.e f)
    | .ok _ => none
  else
    match z.op with
    | .sendv => (s.pumpFault [z.d] []).map (onEnd z.e)
    | .recvv => (s.pumpFault [] [z.d]).map (onEnd z.e)
    | _ => none

/-- The wait of a transfer: its data as read at issue (R230). -/
def State.xferWait (s : State) (z : Xfer) : Wait :=
  { word := wordOf z.i, kind := .channel, timed := z.timed, deadline := if z.timed then s.x z.s else 0,
    op := z.op, endIdx := z.e, dReg := z.d, sReg := z.s,
    value := match z.op with
      | .send => (s.x z.d).setWidth 512
      | .sendv => s.v z.d
      | _ => 0
    pump := if z.op = .sendv && s.proc.pops z.d then some (pumpNum z.d) else none
    addr := if z.op.kind = 2 then (s.g z.d).cursor.toNat else 0
    len := if z.op.kind = 2 then (s.x z.x).toNat else 0 }

/-- An operation completes at issue with a status and no other effect. -/
def State.statusNow (s : State) (r : Reg) (code : Nat) (ev : Option Nat) : State :=
  (s.log s.cur.vt {
    ty := 6, slot := s.slot, obj := ev.getD 0, value := statusWord code ev 0,
    bytes := payload [ev.getD 0, (statusWord code ev 0).toNat] }).put r (statusWord code ev 0)

/-- The executing process goes BLOCKED with a wait. -/
def State.blockOn (s : State) (w : Wait) : State := s.updProc (fun p => p.block w)

/-- The own transfer of a held claim issues: a held input end sends its go, a held output end streams once no go is owed
(R38, R50). -/
def State.useHeld (s : State) (k e : Nat) : State :=
  let x := s.endAt k e
  let t := s.updEnd k e (fun x => { x with hold := false })
  if x.input then t.say k e (.go (BitVec.ofNat 11 ((s.waitOf k e).len / 64)))
  else if x.wgo then t
  else t.openRoute k e

/-- A transfer (R229). A .t form on a claim held by select ignores its deadline (R226); once it waits it makes no probe live as a
deadline form does: the model's choice (log entry 118). -/
def State.transfer (s : State) (z : Xfer) : State :=
  match s.xferFault z with
  | some f => s.raise f
  | none =>
    let k := s.cur.vt
    let x := s.here.endAt z.e
    let w := s.xferWait z
    if x.gone then s.statusNow z.s stClosed (some z.e)
    else if x.hold then (s.blockOn { w with timed := false }).useHeld k z.e
    else if x.po then (s.blockOn w).claim k z.e false
    else if s.past w then s.statusNow z.s stTimeout (some z.e)
    else (s.blockOn w).makeOffer k z.e false (BitVec.ofNat 11 (w.len / 64))

/-- The place of the model's own entry of the time at which a deadline form issued. -/
def timeMark : Nat := 2 ^ 20

/-- A deadline form issues: the time it compares its deadline with enters the log, and a replay takes it from there (R46,
R332). -/
def State.timely (s : State) (f : State → State) : State :=
  match s.here.replay with
  | none => f (s.log s.cur.vt { slot := s.slot, obj := timeMark })
  | some l =>
    match l.find? (fun e => decide (e.obj = timeMark) && decide (e.slot = s.slot) && e.event.isNone) with
    | some e => { f { s.updHere (fun t => { t with replay := some (l.erase e) }) with time := e.when_ } with time := s.time }
    | none => f s

/-- send. -/
def execSend (d : Reg) (e : BitVec 8) (r : Reg) (s : State) : Out :=
  .next (s.forProcess (.send d e r) (s.transfer { op := .send, e := e.toNat, d := d, s := r, i := .send d e r }))
/-- send.t. -/
def execSendT (d : Reg) (e : BitVec 8) (r : Reg) (s : State) : Out :=
  .next (s.forProcess (.sendT d e r)
    (s.timely (fun t => t.transfer { op := .send, e := e.toNat, d := d, s := r, timed := true, i := .sendT d e r })))
/-- recv. -/
def execRecv (d : Reg) (e : BitVec 8) (r : Reg) (s : State) : Out :=
  .next (s.forProcess (.recv d e r) (s.transfer { op := .recv, e := e.toNat, d := d, s := r, i := .recv d e r }))
/-- recv.t. -/
def execRecvT (d : Reg) (e : BitVec 8) (r : Reg) (s : State) : Out :=
  .next (s.forProcess (.recvT d e r)
    (s.timely (fun t => t.transfer { op := .recv, e := e.toNat, d := d, s := r, timed := true, i := .recvT d e r })))
/-- sendv. -/
def execSendv (d : Reg) (e : BitVec 8) (r : Reg) (s : State) : Out :=
  .next (s.forProcess (.sendv d e r) (s.transfer { op := .sendv, e := e.toNat, d := d, s := r, i := .sendv d e r }))
/-- recvv. -/
def execRecvv (d : Reg) (e : BitVec 8) (r : Reg) (s : State) : Out :=
  .next (s.forProcess (.recvv d e r) (s.transfer { op := .recvv, e := e.toNat, d := d, s := r, i := .recvv d e r }))
/-- sendb. -/
def execSendb (d : Reg) (e : BitVec 8) (r x : Reg) (s : State) : Out :=
  .next (s.forProcess (.sendb d e r x)
    (s.transfer { op := .sendb, e := e.toNat, d := d, s := r, x := x, i := .sendb d e r x }))
/-- recvb. -/
def execRecvb (d : Reg) (e : BitVec 8) (r x : Reg) (s : State) : Out :=
  .next (s.forProcess (.recvb d e r x)
    (s.transfer { op := .recvb, e := e.toNat, d := d, s := r, x := x, i := .recvb d e r x }))

/-! Select (R232). -/

/-- The fault of a guard, if any (R47). -/
def VTile.guardFault (t : VTile) (q e : Nat) : Option Flt :=
  let x := t.endAt e
  if x.st = .unbound then some (chanFlt 1 e)
  else if !x.ownedBy q then some (chanFlt 2 e)
  else if !x.input && x.xp then some (chanFlt 7 e)
  else none

/-- select and select.t. The fault for a claim already held names in obj the end on which it is held, R227 saying only `the end`:
the model's choice (log entry 120). One whose deadline is past with no ready guard goes BLOCKED and ends in its own step, so that its
generation counts: the model's choice, for R59 does not say (log entry 96). -/
def State.select (s : State) (d : Reg) (b : BitVec 2) (r x : Reg) (timed : Bool) (i : Instr) : State :=
  let w : Wait := {
    word := wordOf i, kind := .select, timed := timed, deadline := if timed then s.x r else 0, endMask := s.x d,
    guardMask := s.x x, sReg := r, base := b.toNat * 64 }
  match s.here.heldEnd s.cur.who with
  | some h => s.raise (chanFlt 5 h)
  | none =>
    match w.guards.findSome? (s.here.guardFault s.cur.who) with
    | some f => s.raise f
    | none =>
      if (w.guards.filter (fun e => !(s.here.endAt e).gone)).isEmpty then s.statusNow r stClosed none
      else (s.blockOn w).selectNext s.cur.vt s.cur.who

/-- select. -/
def execSelect (d : Reg) (b : BitVec 2) (r x : Reg) (s : State) : Out :=
  .next (s.forProcess (.select d b r x) (s.select d b r x false (.select d b r x)))
/-- select.t. -/
def execSelectT (d : Reg) (b : BitVec 2) (r x : Reg) (s : State) : Out :=
  .next (s.forProcess (.selectT d b r x) (s.timely (fun t => t.select d b r x true (.selectT d b r x))))

/-! probe, chst and chgive (R234, R235). -/

/-- The code of a state (R36). -/
def EndState.code : EndState → Nat
  | .unbound => 0
  | .idle => 1
  | .offered => 2
  | .claimed => 3
  | .transferring => 4
  | .closed => 5
  | .broken => 6

/-- 1 for true. -/
def bit (c : Bool) : Nat := if c then 1 else 0

/-- Bits [46:0] of an end-table entry (R36). -/
def End.low (x : End) : Nat :=
  x.st.code + x.owner.toNat * 2 ^ 5 + x.pvt.toNat * 2 ^ 8 + x.pend.toNat * 2 ^ 24 + bit x.ov * 2 ^ 32
    + bit x.input * 2 ^ 33 + x.kind.toNat * 2 ^ 34 + x.port.toNat * 2 ^ 36 + bit x.xp * 2 ^ 42 + bit x.hold * 2 ^ 43
    + bit x.oo * 2 ^ 44 + bit x.po * 2 ^ 45 + bit x.psel * 2 ^ 46

/-- What probe writes. -/
def End.probeWord (x : End) : Word :=
  BitVec.ofNat 64 (bit (x.po && !x.gone) + bit x.psel * 2 + x.plen.toNat * 4 + bit x.hold * 2 ^ 13
    + x.st.code * 2 ^ 16)

/-- What chst writes. -/
def End.chstWord (x : End) : Word := BitVec.ofNat 64 (x.low + x.seq.toNat * 2 ^ 48)

/-- A look at an end the process owns (R234). -/
def State.inspect (s : State) (d : Reg) (e : BitVec 8) (f : End → Word) : State :=
  let x := s.here.endAt e.toNat
  if x.st = .unbound then s.raise (chanFlt 1 e.toNat)
  else if !x.ownedBy s.cur.who then s.raise (chanFlt 2 e.toNat)
  else s.put d (f x)

/-- probe. -/
def execProbe (d : Reg) (e : BitVec 8) (s : State) : Out := .next (s.forProcess (.probe d e) (s.inspect d e End.probeWord))
/-- chst. -/
def execChst (d : Reg) (e : BitVec 8) (s : State) : Out := .next (s.forProcess (.chst d e) (s.inspect d e End.chstWord))

/-- chgive (R235). -/
def State.give (s : State) (d : Reg) (e : Nat) : State :=
  let x := s.here.endAt e
  let t := (s.x d).toNat % 8
  let st := (s.here.proc t).st
  if x.st = .unbound then s.raise (chanFlt 1 e)
  else if !x.ownedBy s.cur.who then s.raise (chanFlt 2 e)
  else if x.st = .claimed || x.st = .transferring then s.raise (chanFlt 6 e)
  else if t = s.cur.who then s.next
  else if st = .empty || st = .exited then (s.closeEnd s.cur.vt e).next
  else (s.updEnd s.cur.vt e (fun x => { x with owner := BitVec.ofNat 3 t })).next

/-- chgive. -/
def execChgive (d : Reg) (e : BitVec 8) (s : State) : Out := .next (s.forProcess (.chgive d e) (s.give d e.toNat))

end Sys2Proof.Machine
end

