-- ==== Sys2Proof/Machine/Freeze.lean ====
section
/-! DEFINITION. Freezes of a slot and of a whole tile, the thaw, and the resolution of faults: eret, the resumption of
paused work and the release of page waiters (R22, R23, R72, R84, R96 to R100, R246). -/

namespace Sys2Proof.Machine

/-! Paused work. -/

/-- The copies and drains of a slot that a fault paused go on (R71, R246); a tensor copy reads its descriptor again
(R220), and the elements of a cpyx are sent again (R222). -/
def VTile.resumeWork (t : VTile) (q : Nat) (time : Word) : VTile :=
  (t.updIm (fun m => { m with copies := m.copies.map (fun e =>
    if e.2.owner.toNat = q ∧ e.2.st = 1 then (e.1, { e.2 with st := 0, reread := e.2.isTensor, sent := e.2.sent.map (fun x => { x with when_ := time }) }) else e) })).updProc q
    (fun p => { p with pumps := p.pumps.map (fun e => (e.1, { e.2 with stopped := false })) })

/-- A slot has work that a fault paused. -/
def VTile.hasPaused (t : VTile) (q : Nat) : Bool :=
  t.im.copies.any (fun e => decide (e.2.owner.toNat = q) && decide (e.2.st = 1))
    || (t.proc q).pumps.any (fun e => e.2.stopped)

/-- The slots of a waiter set in ascending order. -/
def slotsOf (w : BitVec 8) : List (BitVec 3) :=
  ((List.range 8).map (BitVec.ofNat 3)).filter (fun q => w.getLsbD q.toNat)

/-- The record of a page is resolved by an eret of a slot: the page it awaits, and those whose record its own accesses
queued (R72, R84). -/
def Proc.resolves (p : Proc) (q : BitVec 3) (r : PageRec) : Bool := decide (p.pwait = some r.page) || decide (r.by_ = q)

/-- The pages that an eret of a slot resolves are outstanding no more, and their waiters are to be released. -/
def VTile.resolvePages (t : VTile) (q : BitVec 3) : VTile :=
  let p := t.proc q.toNat
  { t with
    pages := t.pages.filter (fun r => !p.resolves q r)
    releases := t.releases ++
      (t.pages.filter (p.resolves q)).flatMap (fun r => (slotsOf r.waiters).filter (fun w => decide (w ≠ q))) }

/-- A slot goes on after a fault: PARKED to READY, or to FROZEN with prior state READY while the tile is under a
whole-tile freeze, its work going on only after the release (R22, R72, R246). -/
def VTile.goOn (t : VTile) (q : Nat) (time : Word) : VTile :=
  if t.freeze.isSome then
    t.updProc q (fun p => { p with st := .frozen, prior := .ready, pwait := none, resume := true })
  else (t.updProc q (fun p => { p with st := .ready, pwait := none })).resumeWork q time

/-- A FROZEN slot's fault is resolved (R22, R246). -/
def VTile.clearEfp (t : VTile) (q : Nat) (time : Word) : VTile :=
  if t.freeze.isSome then t.updProc q (fun p => { p with efp := false, pwait := none, resume := true })
  else (t.updProc q (fun p => { p with efp := false, pwait := none })).resumeWork q time

/-- PAGE faults of pages that are no longer outstanding wait for a boundary no more: their records are resolved (R72). -/
def VTile.dropResolved (t : VTile) (q : Nat) : VTile :=
  t.updProc q (fun p => { p with
    pendFault := p.pendFault.filter (fun f => decide (f.code ≠ codePage) || t.outstanding (f.aux.toNat % 16384)) })

/-- A slot that waits at its instruction drops the PAGE faults that are resolved, and with none left its paused work goes on:
at once, or at the release of a whole-tile freeze (R72, R84). -/
def VTile.releaseBlocked (t : VTile) (q : Nat) (time : Word) : VTile :=
  let u := t.dropResolved q
  if (t.proc q).pendFault.isEmpty || !(u.proc q).pendFault.isEmpty then u
  else if t.freeze.isSome then u.updProc q (fun p => { p with resume := true })
  else u.resumeWork q time

/-- A released waiter: a PARKED process goes on, whatever it parked for (R72, R246); of any other only the paused work does,
and one still BLOCKED on a committed channel parks no more for the page. -/
def VTile.releaseWaiter (t : VTile) (q : Nat) (time : Word) : VTile :=
  let p := t.proc q
  match p.st with
  | .parked => t.goOn q time
  | .frozen => if p.efp then t.clearEfp q time else t.releaseBlocked q time
  | .exited => t.resumeWork q time
  | .blocked => t.releaseBlocked q time
  | _ => t

/-- One waiter of the resolved pages is released (R72). -/
def VTile.releaseOne (t : VTile) (time : Word) : VTile :=
  match t.releases with
  | q :: r => { t with releases := r }.releaseWaiter q.toNat time
  | [] => t

/-- RETURN FROM A FAULT: eret of a slot, by the slot's state (R246, log entry 16). A slot that awaits a page is released
with the other waiters of the page, one per tc in ascending order. -/
def VTile.eret (t : VTile) (q : BitVec 3) (time : Word) : VTile :=
  let p := t.proc q.toNat
  match p.st with
  | .parked =>
    if p.pwait.isSome then
      let u := t.resolvePages q
      let others := u.releases.drop t.releases.length
      { u with releases := t.releases ++
          ((List.range 8).map (BitVec.ofNat 3)).filter (fun w => decide (w = q) || others.contains w) }
    else (t.resolvePages q).goOn q.toNat time
  | .frozen => if p.efp then (t.resolvePages q).clearEfp q.toNat time else t
  | .exited => if t.hasPaused q.toNat then (t.resolvePages q).resumeWork q.toNat time else t
  | _ => t

/-- eret as the monitor issues it: a slot that it makes READY is so from the next tc (R246). -/
def VTile.eretIssued (t : VTile) (q : BitVec 3) (time : Word) : VTile :=
  let u := t.eret q time
  if (t.proc q.toNat).st = .parked && (u.proc q.toNat).st = .ready then { u with fresh := u.fresh ||| slotBit q } else u

/-! One slot (R96). -/

/-- A context goes FROZEN, remembering its state. -/
def Proc.freeze (p : Proc) : Proc :=
  match p.st with
  | .ready | .blocked => { p with st := .frozen, prior := p.st, ageing := 0, aged := false }
  | _ => p

/-- slotctl freeze: of a slot that a whole-tile freeze holds it takes effect at the release (R96, R100). -/
def VTile.freezeSlot (t : VTile) (q : Nat) : VTile :=
  t.updProc q (fun p =>
    match p.st with
    | .ready | .blocked => { p.freeze with bySlotctl := true }
    | .frozen => { p with preempt := p.preempt || (t.freeze.isSome && !p.bySlotctl) }
    | _ => p)

/-- A FROZEN slot leaves that state by the thaw rows of R22. -/
def State.unfreeze (s : State) (k q : Nat) : State :=
  let p := s.procAt k q
  let t := s.updProcAt k q (fun p => { p with efp := false, bySlotctl := false, preempt := false, prior := .empty })
  if p.efp then
    if p.prior = .blocked && !s.abandonable k q then
      t.updProcAt k q (fun p => { p with st := .blocked, pendFault := p.pendFault ++ [{}] })
    else (if p.prior = .blocked then t.withdrawAll k q else t).updProcAt k q
      (fun p => { p with st := .parked, wait := {} })
  else
    let st := p.prior
    t.updProcAt k q (fun p => { p with st := if st = .blocked then .blocked else .ready })

/-- Held messages for the guards of a blocked select, guard by guard in rotation order (R48). -/
def State.deliverGuards (s : State) (k q : Nat) : State :=
  if (s.procAt k q).wait.kind = .select then
    ((s.tile k).usable q).foldl (fun t e => t.deliverAll (fun m => decide (m.dst = { vt := k, idx := e }))) s
  else s

/-- What a thaw of slots does about deadlines and held messages: an operation whose deadline has passed and for which no
claim is held ends; then selects go on and held messages are applied, those of selects in rotation order; then deadlines
again (R23, R46, R48). -/
def State.catchUp (s : State) (k : Nat) (l : List Nat) (f : Msg → Bool) : State :=
  let t := l.foldl (fun t q => if t.claimHeld k q then t else t.expire k q) s
  let u := l.foldl (fun t q => t.resumeSelect k q) t
  l.foldl (fun t q => t.expire k q) ((l.foldl (fun t q => t.deliverGuards k q) u).deliverAll f)

/-- A thawed slot's wait is evaluated again: its deadline, held messages of its ends, then its wait (R23). -/
def State.reevaluate (s : State) (k q : Nat) : State :=
  (if s.presenting then s
   else s.catchUp k [q] (fun m => decide (m.dst.vt = k) && (s.endAt k m.dst.idx).ov
      && decide (s.ownerOf k m.dst.idx = q))).settleAt k

/-- slotctl thaw: no effect on a slot not FROZEN by slotctl; one that slotctl froze before a whole-tile freeze thaws at the
release of that (R96, R100, R248). -/
def State.thawSlot (s : State) (k q : Nat) : State :=
  let p := s.procAt k q
  if p.st ≠ .frozen || !p.bySlotctl then s
  else if (s.tile k).freeze.isSome then s.updProcAt k q (fun p => { p with bySlotctl := false })
  else (s.unfreeze k q).reevaluate k q

/-! The whole tile (R97 to R100). -/

/-- The priority of a request (R100); a capture is none and comes before the waiting ones (R329). That the requests of an EVICT, a
partition change and a blade's eviction come after those of R100's table is the model's choice, for the table does not
rank them (log entry 110). -/
def FreezeKind.rank : FreezeKind → Nat
  | .emergency => 1
  | .rotation => 2
  | .switch => 3
  | .evict => 4
  | .change => 5
  | .blade => 6
  | .capture => 7

/-- The waiting request of highest priority. -/
def firstRequest (l : List FreezeKind) : Option FreezeKind :=
  l.foldl (fun o k => match o with
    | none => some k
    | some j => if k.rank < j.rank then some k else some j) none

/-- Local copies stop at their element boundary with their progress written; cpyx stops sending (R97 step 3, R98). -/
def VTile.pauseCopies (t : VTile) (time : Word) : VTile :=
  let u := (List.range 16).foldl (fun t e =>
    if (Sparse.get t.im.copies e).isLocal then t.recordProg e else t) t
  u.updIm (fun m => { m with copies := m.copies.map (fun e =>
    (e.1, { e.2 with held := true, reread := e.2.isTensor, since := if e.2.st = 2 then e.2.since else time })) })

/-- Input pumps discard what they prefetched (R97 step 4). -/
def Proc.dropFetched (p : Proc) : Proc := { p with pumps := p.pumps.map (fun e => (e.1, { e.2 with fetched := [], early := [] })) }

/-- A whole-tile freeze is accepted: step 1 of R97, and the stops of steps 3 and 4. Requests of one kind merge. The
monitor's own pumps, of which the manual says nothing, keep what they prefetched (log entry 91). -/
def VTile.halt (t : VTile) (kind : FreezeKind) (time : Word) : VTile :=
  let u := t.pauseCopies time
  { (u.updIm (fun m => { m with procs := m.procs.map (fun e =>
      if e.1 = monitorCtx then e else (e.1, e.2.freeze.dropFetched)) })) with
    freeze := some { kind := kind, since := time }
    requests := t.requests.filter (fun r => decide (r ≠ kind)) }

/-- A request is made of a tile; it waits to be accepted. -/
def VTile.request (t : VTile) (kind : FreezeKind) : VTile :=
  if t.requests.contains kind then t else { t with requests := t.requests ++ [kind] }

/-- Data from or to a vtile streams: its route is open, and it has not landed, but for what waits for the thaw of a receiver
frozen on its own. -/
def State.streaming (s : State) (k : Nat) : Bool :=
  (s.tile k).im.ends.any (fun e => e.2.inbuf.isSome)
    || s.landings.any (fun m => decide (m.src.vt = k) && !s.landsFrozen m.dst.vt m.dst.idx)
    || s.msgs.any (fun m => m.isData && !m.parked && (decide (m.src.vt = k) || decide (m.dst.vt = k)))

/-- Steps 2 to 5 of a freeze have ended: no matrix command, no copy element outstanding, every output pump drained or
stopped, nothing streaming from or to the tile (R97). -/
def State.drained (s : State) (k : Nat) : Bool :=
  let t := s.tile k
  t.im.mats.isEmpty
    && t.im.copies.all (fun e => e.2.sent.isEmpty)
    && t.im.procs.all (fun p => p.2.pumps.all (fun u => u.2.pend.isEmpty || u.2.stopped))
    && !s.streaming k

/-- Copies and drains that a freeze stopped go on, and so does the work of slots resumed meanwhile. -/
def VTile.unpause (t : VTile) (time : Word) : VTile :=
  let u := t.updIm (fun m => { m with copies := m.copies.map (fun e =>
    (e.1, { e.2 with held := false, since := if e.2.st = 2 then e.2.since else time })) })
  (List.range 8).foldl (fun t q =>
    if (t.proc q).resume then (t.updProc q (fun p => { p with resume := false })).resumeWork q time else t) u

/-- The slots of a tile that a release thaws. -/
def VTile.toThaw (t : VTile) : List Nat :=
  (List.range 8).filter (fun q => decide ((t.proc q).st = .frozen) && !(t.proc q).bySlotctl && !(t.proc q).preempt)

/-- A slotctl freeze that waited for the release takes effect (R100). -/
def Proc.takePreempt (p : Proc) : Proc :=
  if p.preempt then { p with preempt := false, bySlotctl := decide (p.st = .frozen) } else p

/-- Those of a tile take effect. -/
def VTile.takePreempts (t : VTile) : VTile := (List.range 8).foldl (fun t q => t.updProc q Proc.takePreempt) t

/-- A tile accepts a freeze, the elements that its agents are writing written whole (R97); for a replay the log holds when. -/
def State.haltTile (s : State) (k : Nat) (kind : FreezeKind) : State :=
  ((s.log k { event := some (.freezeRequestAccepted, { k := k }) }).finishAll k).updTile k (fun t => t.halt kind s.time)

/-- The processes of a tile thaw in one tc: held messages are applied, deadlines and waits evaluated again (R23, R103). A
replay presents those messages and deadlines from its log. -/
def State.thawAll (s : State) (k : Nat) : State :=
  let l := (s.tile k).toThaw
  let u := (s.log k { event := some (.freezeRelease, { k := k }) }).updTile k (fun t => t.takePreempts.unpause s.time)
  let t := l.foldl (fun t q => t.unfreeze k q) u
  (if s.presenting then l.foldl (fun t q => t.resumeSelect k q) (t.openDue k) else (t.openDue k).catchUp k l (fun m => decide (m.dst.vt = k))).settleAt k

/-- A tile is released: the waiting request of highest priority takes effect before any process issues, else the
processes thaw (R100). -/
def State.release (s : State) (k : Nat) : State :=
  let t := s.updTile k (fun t => { t with freeze := none })
  match firstRequest (s.tile k).requests with
  | some r => t.haltTile k r
  | none => t.thawAll k

/-- FREEZE_REQUEST_ACCEPTED: a tile accepts the waiting request of highest priority; one in progress is never aborted,
and one of its own kind joins it (R97, R100). -/
def execFreezeRequestAccepted (s : State) : Out :=
  let k := s.arg.k
  let t := s.tile k
  if s.presenting then .next ((s.finishAll k).updTile k (fun v => { v.halt .capture s.time with requests := v.requests }))
  else
    match firstRequest t.requests with
    | none => .next s
    | some r =>
      match t.freeze with
      | none => if s.active k && t.replay.isNone && !t.lost && !t.failed then .next (s.haltTile k r) else .next s
      | some f =>
        if f.kind ≠ .capture && t.requests.contains f.kind then
          .next (s.updTile k (fun v => { v with requests := v.requests.filter (fun r => decide (r ≠ f.kind)) }))
        else .next s

end Sys2Proof.Machine
end

