-- ==== Sys2Proof/Machine/System.lean ====
section
/-! DEFINITION. Status words, time, the random stream, checkpoint requests, traps, and the word that is no instruction
(R21, R131, R152, R239 to R244). -/

namespace Sys2Proof.Machine

/-- The status words by number (R131), with reserved bits zero. The monitor reads the number of the vtile that its tile runs
and slot 0: the model's choice, for R131 gives them of a process (log entry 93). -/
def State.statusRead (s : State) (w : Nat) : Word :=
  let p := s.proc
  match w with
  | 0 => p.fst.setWidth 64
  | 1 => p.frm.setWidth 64
  | 2 => p.amax
  | 3 => p.rngk
  | 4 => p.rngn
  | 5 => p.pnum
  | 6 => BitVec.ofNat 64 s.here.num
  | 7 => BitVec.ofNat 64 (if s.inMonitor then 0 else s.cur.who)
  | 8 => p.prio.setWidth 64
  | 9 => p.dlthr.setWidth 64 ||| (if p.dlT then 0x100000000 else 0)
  | 10 => p.fltc
  | _ => p.cpid.setWidth 64

/-- amax as stored: nan and 31 bits of magnitude (R109). -/
def amaxStored (v : Word) : Word := v &&& 0x800000007FFFFFFF

/-- A status word written under its access rules; words that are read-only ignore it (R131, R239). -/
def Proc.statusWrite (p : Proc) (w : Nat) (v : Word) : Proc :=
  match w with
  | 0 => { p with fst := v.setWidth 5 }
  | 1 => { p with frm := v.setWidth 2 }
  | 2 => { p with amax := amaxStored v }
  | 3 => { p with rngk := v }
  | 4 => { p with rngn := v }
  | 8 => { p with prio := v.setWidth 2 }
  | 9 => { p with dlthr := v.setWidth 32, dlT := v.getLsbD 32 }
  | _ => p

/-- rds. -/
def execRds (d : Reg) (w : BitVec 5) (s : State) : Out := .next (s.put d (s.statusRead w.toNat))

/-- wrs. -/
def execWrs (a : Reg) (w : BitVec 5) (s : State) : Out :=
  .next (s.updProc (fun p => p.statusWrite w.toNat (s.x a))).next

/-- A tile in replay delivers the time its log holds for the slot, and that entry is used up (R240). -/
def VTile.replayTime (t : VTile) (slot : BitVec 3) : Option (Word × VTile) :=
  match t.replay with
  | none => none
  | some l =>
    match l.find? (fun e => decide (e.ty = 4) && decide (e.slot = slot)) with
    | some e => some (e.value, { t with replay := some (l.erase e) })
    | none => none

/-- time (R240): the value enters the input log; that read by the monitor, which a replay does not run, does not: the model's
choice (log entry 121). -/
def execTime (d : Reg) (s : State) : Out :=
  match (if s.inMonitor then none else s.here.replayTime s.slot) with
  | some (v, t) => .next ((s.updHere (fun _ => t)).put d v)
  | none =>
    .next ((if s.inMonitor then s else
      s.log s.cur.vt { ty := 4, slot := s.slot, value := s.time, bytes := toBytes 8 s.time.toNat }).put d s.time)

/-- rng (R241). -/
def execRng (d : Reg) (s : State) : Out := .next ((s.drawn 1).put d (s.draw 0))

/-- rngskip (R241). -/
def execRngskip (a : Reg) (s : State) : Out := .next (s.updProc (fun p => { p with rngn := p.rngn + s.x a })).next

/-- chkpt: a request that the tile's next checkpoint merges (R243). -/
def execChkpt (s : State) : Out := .next (s.updHere (fun t => { t with ckPending := true })).next

/-- trap (R244). -/
def execTrap (i : BitVec 15) (s : State) : Out := .next (s.raise { code := codeTrap, aux := i.setWidth 64 })

/-- brk (R244). -/
def execBrk (i : BitVec 15) (s : State) : Out := .next (s.raise { code := codeBrk, aux := i.setWidth 64 })

/-- A word that is no instruction raises ILLEGAL precisely at issue, with the word in aux (R152). -/
def execIllegalEncoding (w : BitVec 32) (s : State) : Out := .next (s.illegal w)

end Sys2Proof.Machine
end

