-- ==== Sys2Proof/Machine/Image.lean ====
section
/-! DEFINITION. The context image of a vtile as slotrd and slotwr address it: 8 bytes at a time (R36, R52, R93 to R95,
R204, R215). -/

namespace Sys2Proof.Machine

/-! Codes. -/

/-- The code of a slot state (R94). -/
def SlotState.code : SlotState → Nat
  | .empty => 0
  | .ready => 1
  | .blocked => 2
  | .parked => 3
  | .frozen => 4
  | .exited => 5

/-- The code of a kind of wait (R94). -/
def WaitKind.code : WaitKind → Nat
  | .none => 0
  | .channel => 1
  | .select => 2
  | .latwait => 3
  | .mwait => 4
  | .cwait => 5
  | .fence => 6

/-- The code of a kind of copy (R215). -/
def CopyKind.code : CopyKind → Nat
  | .none => 0
  | .cpy => 1
  | .cpyt => 2
  | .cpyr => 3
  | .xout => 4
  | .xin => 5

/-- The kind of a code; 6 and 7 are not used and stand for an empty entry. -/
def CopyKind.of (n : Nat) : CopyKind :=
  match n with
  | 1 => .cpy
  | 2 => .cpyt
  | 3 => .cpyr
  | 4 => .xout
  | 5 => .xin
  | _ => .none

/-- The state of an end a code names; 7 is not used. -/
def EndState.of (n : Nat) (old : EndState) : EndState :=
  match n with
  | 0 => .unbound
  | 1 => .idle
  | 2 => .offered
  | 3 => .claimed
  | 4 => .transferring
  | 5 => .closed
  | 6 => .broken
  | _ => old

/-- The shape a code names; 3 is not used. -/
def shapeOf (n : Nat) (old : AccShape) : AccShape :=
  match n with
  | 0 => .f32
  | 1 => .s32
  | 2 => .f64
  | _ => old

/-! Parts of numbers. -/

/-- Word i of a number, lowest first. -/
def wordAt (v i : Nat) : Word := BitVec.ofNat 64 (v / 2 ^ (64 * i))

/-- A number with its word i replaced. -/
def withWord (v i : Nat) (w : Word) : Nat := v - (wordAt v i).toNat * 2 ^ (64 * i) + w.toNat * 2 ^ (64 * i)

/-- Bits hi to lo of a number. -/
def bits (v hi lo : Nat) : Nat := v / 2 ^ lo % 2 ^ (hi + 1 - lo)

/-! A slot area (R94). -/

/-- The tags of g0 to g31 as gtag holds them. -/
def Proc.gtag (p : Proc) : Word :=
  BitVec.ofNat 64 ((List.range 32).foldl (fun n i => n + (if (p.rg (BitVec.ofNat 5 i)).tag then 2 ^ i else 0)) 0)

/-- A status word of a slot area by its place. -/
def Proc.statusAt (p : Proc) (i : Nat) : Word :=
  match i with
  | 0 => p.fst.setWidth 64
  | 1 => p.frm.setWidth 64
  | 2 => p.amax
  | 3 => p.rngk
  | 4 => p.rngn
  | 5 => p.prio.setWidth 64
  | 6 => p.dlthr.setWidth 64 ||| (if p.dlT then 0x100000000 else 0)
  | 7 => p.fltc
  | _ => p.cpid.setWidth 64

/-- The 32 bytes of a pump as a number. -/
def Pump.image (u : Pump) : Nat :=
  u.cap.val.toNat + u.desc.toNat * 2 ^ 128
    + (u.pos.toNat + bit u.bound * 2 ^ 32 + bit u.out * 2 ^ 33 + bit u.cap.tag * 2 ^ 34) * 2 ^ 192

/-- A pump as its 32 bytes say. -/
def Pump.ofImage (u : Pump) (n : Nat) : Pump :=
  { u with
    cap := { tag := bits n 226 226 = 1, val := BitVec.ofNat 128 n }
    desc := BitVec.ofNat 64 (n / 2 ^ 128)
    pos := BitVec.ofNat 32 (n / 2 ^ 192)
    bound := bits n 224 224 = 1
    out := bits n 225 225 = 1 }

/-- The wait record as a number. -/
def Wait.image (w : Wait) : Nat :=
  w.word.toNat + w.kind.code * 2 ^ 32 + w.deadline.toNat * 2 ^ 64 + w.endMask.toNat * 2 ^ 128
    + w.guardMask.toNat * 2 ^ 192 + w.target.toNat * 2 ^ 256

/-- The 8 bytes of a slot area at an offset, a multiple of 8. -/
def Proc.word (p : Proc) (off : Nat) : Word :=
  if off < 0x200 then wordAt (p.rg (BitVec.ofNat 5 (off / 16))).val.toNat (off / 8 % 2)
  else if off = 0x200 then p.gtag
  else if off = 0x208 then p.pc.setWidth 64
  else if off = 0x210 then BitVec.ofNat 64 (p.st.code + p.prior.code * 8 + bit p.efp * 64)
  else if off = 0x218 then
    BitVec.ofNat 64 (p.lastEnd.toNat + p.claimed.toNat * 2 ^ 8 + p.nextCid.toNat * 2 ^ 16 + p.ageing.toNat * 2 ^ 32)
  else if off = 0x220 then p.gen ++ p.btime
  else if off = 0x228 then
    match p.pwait with
    | some g => BitVec.ofNat 64 (g.toNat + 2 ^ 63)
    | none => 0
  else if off = 0x230 then p.pnum
  else if off < 0x240 then 0
  else if off < 0x280 then p.rm (BitVec.ofNat 3 ((off - 0x240) / 8))
  else if off < 0x2C8 then p.statusAt ((off - 0x280) / 8)
  else if off < 0x300 then 0
  else if off < 0x380 then wordAt (p.pump ((off - 0x300) / 32)).image (off / 8 % 4)
  else if off < 0x3A0 then wordAt p.memb.toNat ((off - 0x380) / 8)
  else if off < 0x400 then wordAt p.wait.image ((off - 0x3A0) / 8)
  else wordAt (Sparse.get p.v ((off - 0x400) / 64)).toNat (off / 8 % 8)

/-- A g register of a slot with its tag replaced. -/
def Proc.setTag (p : Proc) (i : Nat) (b : Bool) : Proc :=
  p.wg (BitVec.ofNat 5 i) { p.rg (BitVec.ofNat 5 i) with tag := b }

/-- A status word of a slot area written by its place. -/
def Proc.setStatusAt (p : Proc) (i : Nat) (v : Word) : Proc :=
  match i with
  | 0 => p.statusWrite 0 v
  | 1 => p.statusWrite 1 v
  | 2 => p.statusWrite 2 v
  | 3 => p.statusWrite 3 v
  | 4 => p.statusWrite 4 v
  | 5 => p.statusWrite 8 v
  | 6 => p.statusWrite 9 v
  | 7 => { p with fltc := v }
  | _ => { p with cpid := v.setWidth 16 }

/-- A slot area with the 8 bytes at an offset written: read-only and reserved fields ignore it (R94, R95). -/
def Proc.setWord (p : Proc) (off : Nat) (v : Word) : Proc :=
  if off < 0x200 then
    let r : Reg := BitVec.ofNat 5 (off / 16)
    p.wg r { p.rg r with val := BitVec.ofNat 128 (withWord (p.rg r).val.toNat (off / 8 % 2) v) }
  else if off = 0x200 then (List.range 32).foldl (fun p i => p.setTag i (v.getLsbD i)) p
  else if off = 0x208 then { p with pc := (v.setWidth 18 &&& 0x3FFFC : BitVec 18) }
  else if off = 0x218 then
    { p with lastEnd := v.setWidth 8, claimed := BitVec.ofNat 8 (bits v.toNat 15 8)
             nextCid := BitVec.ofNat 16 (bits v.toNat 31 16), ageing := BitVec.ofNat 16 (bits v.toNat 47 32) }
  else if off = 0x230 then { p with pnum := v }
  else if off < 0x240 then p
  else if off < 0x280 then p.wm (BitVec.ofNat 3 ((off - 0x240) / 8)) v
  else if off < 0x2C8 then p.setStatusAt ((off - 0x280) / 8) v
  else if off < 0x300 then p
  else if off < 0x380 then
    p.updPump ((off - 0x300) / 32) (fun u => u.ofImage (withWord u.image (off / 8 % 4) v))
  else if off < 0x3A0 then { p with memb := BitVec.ofNat 256 (withWord p.memb.toNat ((off - 0x380) / 8) v) }
  else if off < 0x400 then p
  else
    let i := (off - 0x400) / 64
    { p with v := Sparse.set p.v i (BitVec.ofNat 512 (withWord (Sparse.get p.v i).toNat (off / 8 % 8) v)) }

/-! The rest of the image (R93). -/

/-- The 16 bytes of an end-table entry as a number (R36). -/
def End.image (x : End) : Nat := x.low + x.plen.toNat * 2 ^ 47 + bit x.wgo * 2 ^ 58 + x.seq.toNat * 2 ^ 64

/-- An end-table entry as its 16 bytes say. -/
def End.ofImage (x : End) (n : Nat) : End :=
  { x with
    st := EndState.of (bits n 2 0) x.st
    owner := BitVec.ofNat 3 (n / 2 ^ 5), pvt := BitVec.ofNat 16 (n / 2 ^ 8), pend := BitVec.ofNat 8 (n / 2 ^ 24)
    ov := bits n 32 32 = 1, input := bits n 33 33 = 1, kind := BitVec.ofNat 2 (n / 2 ^ 34)
    port := BitVec.ofNat 6 (n / 2 ^ 36), xp := bits n 42 42 = 1, hold := bits n 43 43 = 1, oo := bits n 44 44 = 1
    po := bits n 45 45 = 1, psel := bits n 46 46 = 1, plen := BitVec.ofNat 11 (n / 2 ^ 47), wgo := bits n 58 58 = 1
    seq := BitVec.ofNat 16 (n / 2 ^ 64) }

/-- The 8 bytes of a latch home (R52). -/
def LatchHome.word (h : LatchHome) : Word := h.d ++ h.p ++ h.c ++ h.e

/-- A latch home as its 8 bytes say. -/
def LatchHome.ofWord (h : LatchHome) (v : Word) : LatchHome :=
  { h with e := v.setWidth 16, c := v.extractLsb' 16 16, p := v.extractLsb' 32 16, d := v.extractLsb' 48 16 }

/-- The 4 bytes of a latch record; bit 24 says that some slot holds a membership bit (R93, R285). -/
def VTile.latchHalf (t : VTile) (e : Nat) : Nat :=
  (t.latch e).lp.toNat + (t.latch e).arr.toNat * 2 ^ 16 + bit (t.hasRecord e) * 2 ^ 24

/-- A latch record as its 4 bytes say; `h` says that a member is hosted on the tile. -/
def LatchRec.ofHalf (r : LatchRec) (h : Bool) (n : Nat) : LatchRec :=
  { r with
    lp := BitVec.ofNat 16 n, arr := BitVec.ofNat 8 (n / 2 ^ 16)
    hosted := if n.testBit 24 = h then none else some (n.testBit 24) }

/-- The 32 bytes of a pool entry as a number. -/
def PoolEntry.image (e : PoolEntry) : Nat :=
  e.entry.toNat + e.arg.toNat * 2 ^ 64 + e.prio.toNat * 2 ^ 128 + e.num.toNat * 2 ^ 192

/-- A pool entry as its 32 bytes say; bits [1:0] of a pc are 0 (R133). -/
def PoolEntry.ofImage (n : Nat) : PoolEntry :=
  { entry := BitVec.ofNat 18 n &&& 0x3FFFC, arg := BitVec.ofNat 64 (n / 2 ^ 64), prio := BitVec.ofNat 2 (n / 2 ^ 128)
    num := BitVec.ofNat 64 (n / 2 ^ 192) }

/-- An entry of the pool of an image: one that waits, or what stands above the count. -/
def Image.poolAt (m : Image) (i : Nat) : PoolEntry := (m.pool[i]?).getD (Sparse.get m.poolRest i)

/-- The 32 bytes of a copy-queue entry as a number (R215). -/
def Copy.image (c : Copy) : Nat :=
  c.st.toNat * 2 ^ 6 + c.kind.code * 2 ^ 8 + c.owner.toNat * 2 ^ 11 + c.apt.toNat * 2 ^ 14 + c.ty.toNat * 2 ^ 22
    + c.op.toNat * 2 ^ 24 + c.port.toNat * 2 ^ 26 + c.id.toNat * 2 ^ 32 + c.src.toNat * 2 ^ 48 + c.dst.toNat * 2 ^ 80
    + c.dcrc.toNat * 2 ^ 112 + c.lend.toNat * 2 ^ 144 + c.xoff.toNat * 2 ^ 176 + c.prog.toNat * 2 ^ 215

/-- Elements of a copy whose length is in its entry. -/
def Copy.lengthTotal (c : Copy) : Nat := (c.lend.toNat + 63) / 64

/-- A copy-queue entry as its 32 bytes say: a tensor copy reads its descriptor again before it goes on. -/
def Copy.ofImage (c : Copy) (n : Nat) : Copy :=
  let d : Copy := { c with
    st := BitVec.ofNat 2 (n / 2 ^ 6), kind := CopyKind.of (bits n 10 8), owner := BitVec.ofNat 3 (n / 2 ^ 11)
    apt := BitVec.ofNat 8 (n / 2 ^ 14), ty := BitVec.ofNat 2 (n / 2 ^ 22), op := BitVec.ofNat 2 (n / 2 ^ 24)
    port := BitVec.ofNat 6 (n / 2 ^ 26), id := BitVec.ofNat 16 (n / 2 ^ 32), src := BitVec.ofNat 32 (n / 2 ^ 48)
    dst := BitVec.ofNat 32 (n / 2 ^ 80), dcrc := BitVec.ofNat 32 (n / 2 ^ 112), lend := BitVec.ofNat 32 (n / 2 ^ 144)
    xoff := BitVec.ofNat 39 (n / 2 ^ 176), prog := BitVec.ofNat 41 (n / 2 ^ 215), reread := true }
  if d.kind = .cpyt || d.kind = .cpyr then d else { d with total := d.lengthTotal }

/-- The 4 bytes of an accumulator's status (R93, R204). -/
def VTile.accHalf (t : VTile) (c : Nat) : Nat := (t.accWord (BitVec.ofNat 3 c) false).toNat % 2 ^ 13

/-- An accumulator's status as its 4 bytes say; `f` says that a command of it is queued. -/
def AccStatus.ofHalf (a : AccStatus) (f : Bool) (n : Nat) : AccStatus :=
  { valid := bits n 0 0 = 1, dirty := bits n 1 1 = 1, shape := shapeOf (bits n 4 3) a.shape,
    owner := BitVec.ofNat 3 (n / 2 ^ 5), flags := BitVec.ofNat 5 (n / 2 ^ 8)
    flight := if n.testBit 2 = f then none else some (n.testBit 2) }

/-- The 8 bytes of a vtile's image at an offset, a multiple of 8 (R93). -/
def VTile.imageWord (t : VTile) (off : Nat) : Word :=
  let m := t.im
  if off < 0x6000 then (t.proc (off / 0xC00)).word (off % 0xC00)
  else if off < 0xE000 then BitVec.ofNat 64 (ofBytes (Memory.read m.accMem (off - 0x6000) 8))
  else if off < 0xF000 then wordAt (t.endAt ((off - 0xE000) / 16)).image (off / 8 % 2)
  else if off < 0xF800 then (Sparse.get m.homes ((off - 0xF000) / 8)).word
  else if off < 0xFC00 then
    BitVec.ofNat 64 (t.latchHalf ((off - 0xF800) / 4) + t.latchHalf ((off - 0xF800) / 4 + 1) * 2 ^ 32)
  else if off < 0xFD00 then wordAt (m.poolAt ((off - 0xFC00) / 32)).image (off / 8 % 4)
  else if off < 0xFF00 then wordAt (Sparse.get m.copies ((off - 0xFD00) / 32)).image (off / 8 % 4)
  else if off = 0xFF00 then m.spawnCtr
  else if off = 0xFF08 then BitVec.ofNat 64 m.pool.length
  else if off < 0xFF30 then
    BitVec.ofNat 64 (t.accHalf ((off - 0xFF10) / 4) + t.accHalf ((off - 0xFF10) / 4 + 1) * 2 ^ 32)
  else if off = 0xFF30 then BitVec.ofNat 64 (m.rrA.toNat + m.rrB.toNat * 8)
  else 0

/-- The 2 MiB of the tile store in byte order: the constant window, word i at bytes 8 i to 8 i + 7 (R62), then the user tile
store and the monitor area (R61). -/
def Image.tileStore (m : Image) : List Byte :=
  (List.range 256).flatMap (fun i => toBytes 8 (Sparse.get m.consts i).toNat) ++ Memory.read m.store storeLo (storeHi - storeLo)

/-- The 64 KiB of a vtile's image. -/
def VTile.imageBytes (t : VTile) : List Byte := (List.range 8192).flatMap (fun n => toBytes 8 (t.imageWord (8 * n)).toNat)

/-- An entry of the pool written: among those that wait, or above the count. -/
def Image.setPool (m : Image) (i : Nat) (e : PoolEntry) : Image :=
  if i < m.pool.length then { m with pool := m.pool.set i e } else { m with poolRest := Sparse.set m.poolRest i e }

/-- The pool's count written. -/
def Image.setPoolCount (m : Image) (n : Nat) : Image :=
  { m with
    pool := (List.range n).map m.poolAt
    poolRest := (List.range 8).foldl (fun r i => Sparse.set r i (if i < n then {} else m.poolAt i)) [] }

/-- The image above the slot areas with the 8 bytes at an offset written (R93). -/
def VTile.setImageWord (t : VTile) (off : Nat) (v : Word) : VTile :=
  t.updIm (fun m =>
    if off < 0xE000 then { m with accMem := Memory.write m.accMem (off - 0x6000) (toBytes 8 v.toNat) }
    else if off < 0xF000 then
      { m with ends := Sparse.upd m.ends ((off - 0xE000) / 16) (fun x => x.ofImage (withWord x.image (off / 8 % 2) v)) }
    else if off < 0xF800 then { m with homes := Sparse.upd m.homes ((off - 0xF000) / 8) (fun h => h.ofWord v) }
    else if off < 0xFC00 then
      let i := (off - 0xF800) / 4
      let l := Sparse.upd m.recs i (fun r => r.ofHalf (t.hostsMember i) (bits v.toNat 31 0))
      { m with recs := Sparse.upd l (i + 1) (fun r => r.ofHalf (t.hostsMember (i + 1)) (bits v.toNat 63 32)) }
    else if off < 0xFD00 then
      let i := (off - 0xFC00) / 32
      m.setPool i (PoolEntry.ofImage (withWord (m.poolAt i).image (off / 8 % 4) v))
    else if off < 0xFF00 then
      let i := (off - 0xFD00) / 32
      { m with copies := Sparse.upd m.copies i (fun c => c.ofImage (withWord c.image (off / 8 % 4) v)) }
    else if off = 0xFF00 then { m with spawnCtr := v }
    else if off = 0xFF08 then m.setPoolCount (min 8 (bits v.toNat 3 0))
    else if off < 0xFF30 then
      let i := (off - 0xFF10) / 4
      let l := Sparse.upd m.accs i (fun a => a.ofHalf (t.queued (BitVec.ofNat 3 i)) (bits v.toNat 31 0))
      let f := t.queued (BitVec.ofNat 3 (i + 1))
      { m with accs := Sparse.upd l (i + 1) (fun a => a.ofHalf f (bits v.toNat 63 32)) }
    else if off = 0xFF30 then { m with rrA := BitVec.ofNat 3 v.toNat, rrB := BitVec.ofNat 3 (v.toNat / 8) }
    else m)

/-- A write of the image takes effect: to a slot area while the slot is EMPTY, PARKED, FROZEN or EXITED, above while the
whole tile is frozen (R95). -/
def VTile.imageOpen (t : VTile) (off : Nat) : Bool :=
  if off < 0x6000 then
    match (t.proc (off / 0xC00)).st with
    | .ready | .blocked => false
    | _ => true
  else t.freeze.isSome

/-- A write of the image under R95: the vtile after it, and the status. -/
def VTile.slotwr (t : VTile) (off : Nat) (v : Word) : VTile × Word :=
  if !t.imageOpen off then (t, 1)
  else if off < 0x6000 then (t.updProc (off / 0xC00) (fun p => p.setWord (off % 0xC00) v), 0)
  else (t.setImageWord off v, 0)

end Sys2Proof.Machine
end

