-- ==== Sys2Proof/Machine/Monitor.lean ====
section
/-! DEFINITION. The monitor: its words, the translation entries it submits, and its idle state (R86 to R92, R245 to
R250). -/

namespace Sys2Proof.Machine

/-! Translation entries (R68, R316). -/

/-- The tenant slot of a partition that a tenant holds. -/
def Partition.slotOf (p : Partition) (tenant : Nat) : Option Nat :=
  if p.v0 && decide (p.t0.toNat = tenant) then some 0
  else if p.v1 && decide (p.t1.toNat = tenant) then some 1
  else none

/-- The tenants of a partition, by slot. -/
def Partition.tenants (p : Partition) : List (BitVec 4) := (if p.v0 then [p.t0] else []) ++ (if p.v1 then [p.t1] else [])

/-- A stack of a region is lost. -/
def State.stackLost (s : State) (region stk : Nat) : Bool :=
  let r := Sparse.get s.regions region
  if stk = 0 then r.stack0Lost else r.stack1Lost

/-- The memory-side die refuses an entry of a vtile's table (R68). -/
def State.refusesEntry (s : State) (k : Nat) (v : Word) : Bool :=
  let t := s.tile k
  let p := Sparse.get s.parts t.part
  let f := entryFrame v % 16384
  decide (v &&& 0xFFFFFF00000FFFF0 ≠ 0)
    || (entryM v && (decide (15360 ≤ f)
      || (p.dual && (if p.slotOf t.tenant = some 1 then decide (f < 7680) else decide (7680 ≤ f)))
      || s.stackLost (regionOf t.ptile) (entryStk v)))

/-- The number of a frame on the panel. -/
def State.frameNum (s : State) (k : Nat) (v : Word) : Nat :=
  regionOf (s.tile k).ptile * 2 ^ 21 + entryStk v * 2 ^ 20 + entryFrame v

/-- A page's entry written; a frame that another tenant mapped last is zeroed first, one that none has mapped keeps what the
driver wrote there (R288, R316). The change enters the log. -/
def State.mapPage (s : State) (k page : Nat) (v : Word) : State :=
  let t := (s.log k { mon := some (.map page v) }).retable k (fun t => { t with pt := Sparse.set t.pt page v })
  let f := s.frameNum k v
  let ten := (s.tile k).tenant + 1
  let last := Sparse.get s.frameTen f
  if !entryM v || last = ten then t
  else { t with
    hbm := if last = 0 then t.hbm else Memory.clear t.hbm (f * 65536) 65536, frameTen := Sparse.set s.frameTen f ten }

/-- The pages of a table (R68). -/
def wellPages : Nat := 15360

/-- An entry submitted by the monitor is applied, or refused with ptwst set (R88, R92). Of a page above 15,359, which ptsel can
name though no table has it, an entry is refused and reads as 0: the model's choice (log entry 111). -/
def State.submitEntry (s : State) (k page : Nat) (v : Word) : State :=
  if wellPages ≤ page || s.refusesEntry k v then s.updTile k (fun t => { t with ptwst := true })
  else s.mapPage k page v

/-! Words of the monitor. -/

/-- What a run of the monitor does to the tile, logged for a replay (R332 type 8). -/
def State.logMon (s : State) (op : MonOp) : State := s.logOp s.cur.vt op

/-- eret (R246): it ends no run of the monitor and moves no fqhd. -/
def execEret (a : Reg) (s : State) : Out :=
  let q : BitVec 3 := (s.x a).setWidth 3
  .next (s.forMonitor (.eret a)
    (((s.logMon (.eret q.toNat)).updHere (fun t => t.eretIssued q s.time)).next))

/-- The offset in the image that a g register names. -/
def imageOff (v : Word) : Nat := bits v.toNat 15 3 * 8

/-- slotrd (R247). -/
def execSlotrd (d a : Reg) (s : State) : Out :=
  .next (s.forMonitor (.slotrd d a) (s.put d (s.here.imageWord (imageOff (s.x a)))))

/-- slotwr (R247). -/
def execSlotwr (d a b : Reg) (s : State) : Out :=
  let off := imageOff (s.x a)
  let r := s.here.slotwr off (s.x b)
  .next (s.forMonitor (.slotwr d a b)
    (((s.logMon (.slotwr off (s.x b))).updHere (fun _ => (s.logMon (.slotwr off (s.x b))).here.slotwr off (s.x b) |>.1)).put
      d r.2))

/-- What slotctl does to a slot: thaw, freeze, kill or nothing (R248). -/
def State.slotctl (s : State) (k q act : Nat) : State :=
  match act with
  | 0 => s.thawSlot k q
  | 1 => s.updTile k (fun t => t.freezeSlot q)
  | 2 => s.kill k q
  | _ => s

/-- The one word of slotctl: the action stands in gb (R248, log entry 6). -/
def State.slotctlWord (s : State) (a b : Reg) : State :=
  let q := (s.x a).toNat % 8
  let act := (s.x b).toNat % 4
  s.forMonitor (.slotctlThaw a b) ((s.logMon (.slotctl q act)).slotctl s.cur.vt q act).next

/-- slotctl, listed as a thaw. -/
def execSlotctlThaw (a b : Reg) (s : State) : Out := .next (s.slotctlWord a b)
/-- slotctl, listed as a freeze. -/
def execSlotctlFreeze (a b : Reg) (s : State) : Out := .next (s.slotctlWord a b)
/-- slotctl, listed as a kill. -/
def execSlotctlKill (a b : Reg) (s : State) : Out := .next (s.slotctlWord a b)

/-- Translations of a page, or of every page, leave the cache, and the results of walks in flight are to be discarded
(R249). -/
def VTile.invalidate (t : VTile) (page : Option (BitVec 14)) : VTile :=
  match page with
  | none => { t with tlb := [], discard := t.walking }
  | some g =>
    { t with
      tlb := Sparse.drop t.tlb g.toNat
      discard := if t.walking.contains g.toNat then g.toNat :: t.discard else t.discard }

/-- tlbinv (R249): the monitor waits until no walk of the page is in flight. -/
def execTlbinv (a : Reg) (s : State) : Out :=
  let page : Option (BitVec 14) := if (s.x a).getLsbD 63 then none else some ((s.x a).setWidth 14)
  .next (s.forMonitor (.tlbinv a)
    ((s.retable s.cur.vt (fun t => { t.invalidate page with monWait := .tlbinv page })).next))

/-- A condition that makes the monitor runnable (R89): records, parked processes without one, a freeze request, or the
driver's request. -/
def VTile.monRunnable (t : VTile) : Bool :=
  decide (0 < t.held) || !t.fqwait.isEmpty || !t.requests.isEmpty || t.reqReg

/-- idle (R250). -/
def execIdle (s : State) : Out :=
  .next (s.forMonitor .idle
    (s.updHere (fun t => if t.monRunnable then { t with reqReg := false } else { t with monWait := .idle })).next)

/-- Processes parked without a record (R86). -/
def VTile.waitingCount (t : VTile) : Nat := (t.fqwait.map (fun r => r.slot)).eraseDups.length

/-- A monitor word as read (R86, R132); ptent reads as 0 while ptsel names a page above 15,359 (log entry 111). -/
def VTile.monRead (t : VTile) (w : Nat) : Word :=
  match w with
  | 0 => t.fqtl.setWidth 64
  | 1 => t.fqhd.setWidth 64
  | 2 => BitVec.ofNat 64 t.waitingCount
  | 3 => t.wdl
  | 4 => BitVec.ofNat 64 (bit t.ptwst)
  | 5 => t.ptsel.setWidth 64
  | 6 => if t.ptsel.toNat < wellPages then Sparse.get t.pt t.ptsel.toNat else 0
  | 8 => BitVec.ofNat 64 (bit t.hfqFull + bit t.hfqBad * 2)
  | _ => 0

/-- Bits that reading a monitor word clears (R86). -/
def VTile.monClear (t : VTile) (w : Nat) : VTile :=
  match w with
  | 4 => { t with ptwst := false }
  | 8 => { t with hfqBad := false }
  | _ => t

/-- mrds. -/
def execMrds (d : Reg) (w : BitVec 5) (s : State) : Out :=
  .next (s.forMonitor (.mrds d w)
    ((s.updHere (fun t => t.monClear w.toNat)).put d (s.here.monRead w.toNat)))

/-- A monitor word written that has no effect beyond itself (R86); read-only words ignore it. -/
def VTile.monWrite (t : VTile) (w : Nat) (v : Word) : VTile :=
  match w with
  | 3 => { t with wdl := v }
  | 5 => { t with ptsel := v.setWidth 14 }
  | _ => t

/-- mwrs of the words without a row of their own. -/
def execMwrs (a : Reg) (w : BitVec 5) (s : State) : Out :=
  .next (s.forMonitor (.mwrs a w) ((s.logMon (.word w.toNat (s.x a))).updHere (fun t => t.monWrite w.toNat (s.x a))).next)

/-- fqhd written: ignored when the queue would hold more than 16 records or fewer than none (R87). -/
def VTile.setHead (t : VTile) (h : BitVec 5) : VTile :=
  if 16 < (t.fqtl - h).toNat then t
  else { t with fqhd := h }

/-- mwrs fqhd. -/
def execMwrsFqhd (a : Reg) (s : State) : Out :=
  .next (s.forMonitor (.mwrsFqhd a)
    ((s.logMon (.word 1 (s.x a))).updHere (fun t => t.setHead ((s.x a).setWidth 5))).next)

/-- mwrs ptent: the monitor waits until the entry is applied or refused (R92). -/
def execMwrsPtent (a : Reg) (s : State) : Out :=
  .next (s.forMonitor (.mwrsPtent a)
    ((s.logMon (.word 6 (s.x a))).updHere (fun t => { t with monWait := .entry t.ptsel (s.x a) })).next)

/-- The tenant that the header of a host fault entry names (R89). -/
def VTile.hfqTenant (t : VTile) (addr : Nat) : Nat := ofBytes (Memory.read t.im.store (addr + 34) 2)

/-- A host fault entry that appends nothing: not 64 B aligned, not in the monitor area, or a tenant without a slot
(R92). -/
def State.hfqBadAt (s : State) (k addr : Nat) : Bool :=
  let t := s.tile k
  decide (addr % 64 ≠ 0) || decide (addr < monLo) || decide (storeHi < addr + 64)
    || ((Sparse.get s.parts t.part).slotOf (t.hfqTenant addr)).isNone

/-- mwrs hfq: the monitor waits until the entry is written (R92). -/
def execMwrsHfq (a : Reg) (s : State) : Out :=
  let addr := (s.x a).toNat % 2 ^ 32
  .next (s.forMonitor (.mwrsHfq a)
    ((s.logMon (.word 7 (s.x a))).updHere (fun t =>
      if s.hfqBadAt s.cur.vt addr then { t with hfqBad := true }
      else { t with hfqBad := false, monWait := .hfq addr s.time })).next)

end Sys2Proof.Machine
end

