-- ==== Sys2Proof/Machine/Engines.lean ====
section
/-! DEFINITION. The engines at work: matrix commands, copy elements, external copies, and pumps (R75, R97, R98, R199 to
R203, R214 to R223). -/

namespace Sys2Proof.Machine

/-- A vtile's engine may take its next step now: its tenant is resident, and a replay presents what its log holds. -/
def State.engineRuns (s : State) (k : Nat) : Bool := s.active k && !(s.tile k).lost && !s.replaying k

/-- An engine's step enters the input log as type 7, with the command and the copy id (R332); one unit moved ahead of the rest, c
being 1 or 2, as an entry of the model's own. -/
def State.logEngine (s : State) (i : Instr) (what id : Nat) : State :=
  s.log s.arg.k { ty := if s.arg.c = 0 then 7 else 0, slot := BitVec.ofNat 3 s.arg.q, obj := s.arg.e, event := some (i, s.arg), bytes := payload [what, id] }

/-! The matrix engine. -/

/-- The command reads and writes the tile store: only a store writes it. -/
def MatOp.writes : MatOp → Bool
  | .store _ _ _ _ => true
  | _ => false

/-- The tile store as a command sees it: the units it read ahead in their places (R75). -/
def VTile.seenBy (t : VTile) (e : MatCmd) : VTile :=
  t.updIm (fun m => { m with store := e.early.foldl (fun st u => Memory.write st (8 * u.1) u.2) m.store })

/-- A command writes a unit of the tile store: what it leaves there does not depend on what was there. -/
def VTile.matWrites (t : VTile) (e : MatCmd) (n : Nat) : Bool :=
  let f (b : Byte) : List Byte :=
    Memory.read ((t.updIm (fun m => { m with store := Memory.write m.store (8 * n) (List.replicate 8 b) })).runMat e).im.store
      (8 * n) 8
  decide (f 0 = f 255)

/-- One 8-byte unit of the tile store of a vtile, with its tag, as another state of the vtile has it. -/
def VTile.takeUnit (t u : VTile) (n : Nat) : VTile :=
  (t.streamed (n / 512)).updIm (fun m => { m with
    store := Memory.write m.store (8 * n) (Memory.read u.im.store (8 * n) 8)
    tags := Sparse.set m.tags (n / 2) (Sparse.get u.im.tags (n / 2)) })

/-- The bytes of a unit of the tile store put back as another state of the vtile has them, and the tag of their 16 B when the
other unit of the 16 B was moved ahead too, so that the command clears it no more (R66). -/
def VTile.restoreUnit (t u : VTile) (e : MatCmd) (n : Nat) : VTile :=
  t.updIm (fun m => { m with
    store := Memory.write m.store (8 * n) (Memory.read u.im.store (8 * n) 8)
    tags := if e.wrote.contains (n ^^^ 1) || !u.matWrites e (n ^^^ 1) then
        Sparse.set m.tags (n / 2) (Sparse.get u.im.tags (n / 2)) else m.tags })

/-- The effect of a command, at its completion, but for the units it has moved ahead (R75, R203). -/
def VTile.runMatRest (t : VTile) (e : MatCmd) : VTile :=
  if e.op.writes then e.wrote.foldl (fun u n => u.restoreUnit t e n) (t.runMat e)
  else if e.early.isEmpty then t.runMat e
  else ((t.seenBy e).runMat e).updIm (fun m => { m with store := t.im.store })

/-- The oldest command moves one unit of the tile store ahead of its completion: a store writes it, any other reads it
(R75). -/
def VTile.matUnit (t : VTile) (e : MatCmd) (n : Nat) : VTile :=
  let l := Memory.read t.im.store (8 * n) 8
  if e.op.writes then
    let u := t.runMat e
    if !t.matWrites e n || e.wrote.contains n then t
    else (t.takeUnit u n).updIm (fun m => { m with mats := m.mats.modify 0 (fun e => { e with wrote := n :: e.wrote }) })
  else if decide (storeHi ≤ 8 * n) || !(Sparse.get e.early n).isEmpty then t
  else t.updIm (fun m => { m with mats := m.mats.modify 0 (fun e => { e with early := Sparse.set e.early n l }) })

/-- MATRIX_COMMAND_COMPLETE: the oldest command takes its effect (R203, R211); with c = 1 it moves unit j of the tile
store ahead of its completion, within the window of R75. -/
def execMatrixCommandComplete (s : State) : Out :=
  let k := s.arg.k
  match (s.tile k).im.mats with
  | [] => .next s
  | e :: _ =>
    if !s.engineRuns k then .next s
    else if s.arg.c = 1 then
      .next ((s.logEngine .matrixCommandComplete e.acc.toNat 0).updTile k (fun t => t.matUnit e s.arg.j))
    else
      .next (((s.logEngine .matrixCommandComplete e.acc.toNat 0).updTile k (fun t =>
        ((t.runMatRest e).updAcc e.acc AccStatus.follow).updIm (fun m => { m with mats := m.mats.drop 1 }))).settleAt k)

/-! Local copies. -/

/-- A local copy is the oldest of its tile: local copies run one at a time, in issue order (R214). -/
def VTile.isHead (t : VTile) (c : Copy) : Bool := t.im.copies.all (fun e => !e.2.isLocal || decide (c.order ≤ e.2.order))

/-- The fault of the pages of an element that the engine reaches: the destination first, then the source; none of one that
it is writing (R69, R71). -/
def State.elementFault (s : State) (k : Nat) (c : Copy) (n : Nat) : Option Flt :=
  let e := c.element n
  if !c.wrote.isEmpty then none
  else
  match s.checkPages k e.2.1 e.2.2 (c.kind = .cpyr) true with
  | some f => some f
  | none => s.checkPages k e.1 e.2.2 true false

/-- The value of a lane of a reducing copy: dst op src (R219). -/
def cpyrLane (ty op : BitVec 2) (a b : Nat) : Nat :=
  let f := match ty.toNat with
    | 1 => fmtBf16
    | 3 => fmtF64
    | _ => fmtF32
  if ty.toNat = 2 then
    let x := (BitVec.ofNat 32 a).toInt
    let y := (BitVec.ofNat 32 b).toInt
    encInt 32 (if op = 0 then x + y else if op = 1 then max x y else min x y)
  else if op = 0 then (f.deliver .rne (fsum .rne [f.unpack a, f.unpack b])).1
  else (f.minmax (op = 1) a b).1

/-- The bytes of a reduced element, lane by lane. -/
def cpyrBytes (ty op : BitVec 2) (sz : Nat) (d s : List Byte) : Nat → List Byte
  | 0 => []
  | n + 1 =>
    toBytes sz (cpyrLane ty op (ofBytes (d.take sz)) (ofBytes (s.take sz)))
      ++ cpyrBytes ty op sz (d.drop sz) (s.drop sz) n

/-- The bytes an element of a local copy writes: source units read ahead in their places (R75). -/
def State.elementBytes (s : State) (k : Nat) (c : Copy) (n : Nat) : List Byte :=
  let e := c.element n
  let src := mixUnits c.early (8 * n) (s.readBytes k e.1 e.2.2)
  if c.kind = .cpyr then
    cpyrBytes c.ty c.op (cpyrSize c.ty) (s.readBytes k e.2.1 e.2.2) src (e.2.2 / cpyrSize c.ty)
  else src

/-- A copy ends: its entry is freed, and what waited goes on (R214). -/
def State.endCopy (s : State) (k e : Nat) : State := (s.updTile k (fun t => (t.recordProg e).freeCopy e)).settleAt k

/-- A copy pauses for a fault at its element boundary, with its progress recorded and its issuer parked (R71, R220). -/
def State.pauseCopy (s : State) (k e : Nat) (src : BitVec 4) (f : Flt) : State :=
  let c := s.copyAt k e
  (s.updTile k (fun t => (t.updCopy e (fun c => { c with st := 1 })).recordProg e)).engineFault k c.owner.toNat
    { code := f.code, src := src, addr := f.addr, aux := f.aux }

/-- The aux of a fault of the copy engine: the copy id in [47:32] (R81). -/
def Flt.ofCopy (f : Flt) (c : Copy) : Flt := { f with aux := f.aux ||| BitVec.ofNat 64 (c.id.toNat * 2 ^ 32) }

/-- The descriptor read again on resume (R220): the copy with what it says, or none when its CRC differs. -/
def State.rereads (s : State) (k : Nat) (c : Copy) : Option Copy :=
  let l := s.readBytes k c.lend.toNat 128
  if descCrc l = c.dcrc then
    some { c with reread := false, esz := descEsz l, dims := descDims l, total := descTotal l (descNd l) }
  else none

/-- The walks that an element of a local copy asks for. -/
def State.elementWalks (s : State) (k : Nat) (c : Copy) (n : Nat) : State :=
  (s.walkFor k (c.element n).2.1 (c.element n).2.2).walkFor k (c.element n).1 (c.element n).2.2

/-- An element of a local copy, and the copy's end with the last one. -/
def State.localElement (s : State) (k e : Nat) (c : Copy) : State :=
  let n := c.prog.toNat
  if c.total ≤ n then s.endCopy k e
  else
    match s.elementFault k c n with
    | some f => (s.elementWalks k c n).pauseCopy k e 2 (f.ofCopy c)
    | none =>
      let t := ((s.elementWalks k c n).writeUnits k (c.element n).2.1 c.wrote (8 * n) (s.elementBytes k c n)).updCopyAt k e
        Copy.pass
      if n + 1 = c.total then t.endCopy k e else t

/-- The units of an element as they are read, those read ahead in their places. -/
def readUnits (early : Sparse (List Byte)) (n : Nat) (l : List Byte) : Sparse (List Byte) :=
  (List.range ((l.length + 7) / 8)).foldl (fun o u => Sparse.set o (8 * n + u) (unitOf (mixUnits early (8 * n) l) u)) early

/-- One 8-byte unit of the element a local copy is at moves ahead of the rest: read; or written, once the rest of the
element is read too (R216). The element of a reducing copy is written whole (R75). -/
def State.localUnit (s : State) (k e : Nat) (c : Copy) (u : Nat) (write : Bool) : State :=
  let n := c.prog.toNat
  let x := c.element n
  if c.total ≤ n || x.2.2 ≤ 8 * u || (s.elementFault k c n).isSome || (write && decide (c.kind = .cpyr)) then s
  else if !write then
    s.updCopyAt k e (fun c => { c with
      early := Sparse.set c.early (8 * n + u) (mixUnits c.early (8 * n + u) (s.readBytes k (x.1 + 8 * u) (min 8 (x.2.2 - 8 * u)))) })
  else
    let l := readUnits c.early n (s.readBytes k x.1 x.2.2)
    (s.writeUnits k (x.2.1 + 8 * u) c.wrote (8 * n + u) (Sparse.get l (8 * n + u))).updCopyAt k e
      (fun c => { c with early := l, wrote := (8 * n + u) :: c.wrote })

/-- A tensor copy that resumes reads its descriptor again, and pauses once more when that has changed (R220); then it goes
on as `f` says. -/
def State.resumed (s : State) (k e : Nat) (c : Copy) (f : State → Copy → State) : State :=
  if c.reread && c.isTensor && c.wrote.isEmpty then
    match s.rereads k c with
    | none => s.pauseCopy k e 2 (Flt.ofCopy { code := codeEngDesc, aux := 0x10 } c)
    | some d => f (s.updCopyAt k e (fun _ => d)) d
  else f s c

/-! External copies. -/

/-- The aperture offset of an element: xoff stands at the next one (R215). -/
def Copy.farAt (c : Copy) (n : Nat) : Nat := ((c.xoff.toNat : Int) + n - c.prog.toNat).toNat * 64

/-- Where peer memory begins among the places outside the panel; host memory of a function stands below it. -/
def peerPlace : Nat := 2 ^ 80

/-- The place outside the panel of an element of a cpyx (R221, R312). -/
def State.farPlace (s : State) (k : Nat) (c : Copy) (n : Nat) : Nat :=
  let ap := Sparse.get (s.netOf k).apertures c.apt.toNat
  if ap.peer then peerPlace + ap.serial.toNat * 2 ^ 64 + ap.base + c.farAt n
  else (s.tile k).tenant * 2 ^ 64 + ap.base + c.farAt n

/-- The port of an external copy is live: the host link, or an optical link (R300, R306). -/
def State.portLive (s : State) (port : Nat) : Bool :=
  if port = 63 then s.up.hostLink && s.linkLive hostLinkEntry else s.linkLive (opticalBase + port)

/-- An element of an external copy finds its way: its port is live, and no link between its tile and the port is missing
(R222, R267, R301). -/
def State.copyLive (s : State) (k : Nat) (c : Copy) : Bool :=
  let port := if c.port.toNat = 63 then 0 else c.port.toNat
  s.portLive c.port.toNat && s.routeLive (routeOut (s.tile k).ptile port)
    && (decide (c.kind ≠ .xin) || s.routeLive (routeIn port (s.tile k).ptile))

/-- Bytes outside the panel. -/
def State.readFar (s : State) (a n : Nat) : List Byte :=
  if peerPlace ≤ a then Memory.read s.peerMem (a - peerPlace) n else Memory.read s.hostMem a n

/-- Bytes written outside the panel. -/
def State.writeFar (s : State) (a : Nat) (l : List Byte) : State :=
  if peerPlace ≤ a then { s with peerMem := Memory.write s.peerMem (a - peerPlace) l }
  else { s with hostMem := Memory.write s.hostMem a l }

/-- The path of an external write: its tile, port and aperture (R80). -/
def pathOf (k : Nat) (c : Copy) : Nat := k * 2 ^ 14 + c.port.toNat * 256 + c.apt.toNat

/-- The next element a cpyx sends: the first neither done nor sent. -/
def Copy.nextSend (c : Copy) : Option Nat :=
  ((List.range (c.sent.length + c.acked.length + 1)).map (c.prog.toNat + ·)).find? (fun n =>
    decide (n < c.total) && !(c.sent.any (fun e => e.elem == n)) && !c.acked.contains n)

/-- A cpyx sends its next element: one to be sent again with the bytes it had (R98), another with the bytes that its
place holds now, or it pauses at a page without rights (R71, R222). -/
def State.sendElement (s : State) (k e : Nat) (c : Copy) : State :=
  match c.nextSend with
  | none => if c.total ≤ c.prog.toNat then s.endCopy k e else s
  | some n =>
    match c.kept.find? (fun x => x.elem == n) with
    | some x => s.updCopyAt k e (fun c => { c with sent := c.sent ++ [{ x with when_ := s.time }] })
    | none =>
      let t := s.walkFor k (c.localAt n) 64
      match s.checkPages k (c.localAt n) 64 (c.kind = .xout) (c.kind = .xin) with
      | some f => t.pauseCopy k e 2 (f.ofCopy c)
      | none => t.updCopyAt k e (fun c => { c with sent := c.sent ++ [{
          elem := n, when_ := s.time
          bytes := if c.kind = .xout then mixUnits c.early (8 * n) (s.readBytes k (c.localAt n) 64) else [] }] })

/-- One 8-byte unit of the next element of a cpyx.out is read ahead of its sending (R75). -/
def State.sendUnit (s : State) (k e : Nat) (c : Copy) (u : Nat) : State :=
  match c.nextSend with
  | none => s
  | some n =>
    if c.kind ≠ .xout || decide (8 ≤ u) || (s.checkPages k (c.localAt n) 64 true false).isSome then s
    else s.updCopyAt k e (fun c => { c with
      early := Sparse.set c.early (8 * n + u) (s.readBytes k (c.localAt n + 8 * u) 8) })

/-- A local copy takes a step: of a whole element, or with c = 1 or 2 of one unit that it reads or writes ahead. -/
def State.localTurn (s : State) (k e : Nat) (c : Copy) : State :=
  s.resumed k e c (fun t d => if s.arg.c = 0 then t.localElement k e d else t.localUnit k e d s.arg.j (s.arg.c = 2))

/-- COPY_ELEMENT: the copy engine takes a step of one entry (R214): an element, or with c = 1 or 2 one 8-byte unit of it
ahead of the rest (R75). -/
def execCopyElement (s : State) : Out :=
  let k := s.arg.k
  let e := s.arg.e
  let c := s.copyAt k e
  if c.kind = .none || c.st ≠ 0 || c.held || !s.engineRuns k then .next s
  else if c.isExternal then
    .next (if s.arg.c = 0 then (s.logEngine .copyElement e c.id.toNat).sendElement k e c
      else (s.logEngine .copyElement e c.id.toNat).sendUnit k e c s.arg.j)
  else if (s.tile k).isHead c && (s.arg.c = 1 || !s.wellWaits k (c.element c.prog.toNat).2.1) then
    .next ((s.logEngine .copyElement e c.id.toNat).localTurn k e c)
  else .next s

/-- An element of a cpyx is done; with the last one, or the last one of an aborted copy, the copy ends (R223). -/
def State.elementDone (s : State) (k e n : Nat) : State :=
  let t := s.updCopyAt k e (fun c => c.elemDone n)
  let c := t.copyAt k e
  if c.total ≤ c.prog.toNat || (c.st = 2 && c.sent.isEmpty) then t.endCopy k e else t

/-- Bytes the manual leaves undefined: others at every turn of the fabric, which drops at most one element. -/
def State.openBytes (s : State) (n : Nat) : List Byte := (List.range n).map (fun i => Config.freeByte (s.count * 64 + i))

/-- A cpyx.out on a path is outstanding that was issued before a given place in issue order: its writes have all to land
first (R80). -/
def VTile.olderOn (t : VTile) (k path order : Nat) : Bool :=
  t.im.copies.any (fun e => decide (e.2.kind = .xout) && decide (pathOf k e.2 = path) && decide (e.2.order < order))

/-- The writes of an older cpyx.out on the same path have all to land first (R80). -/
def VTile.pathClear (t : VTile) (k : Nat) (c : Copy) : Bool := !t.olderOn k (pathOf k c) c.order

/-- What was left on a path by copies issued no later can land no later than a write that lands on it (R80). -/
def State.clearPath (s : State) (path order : Nat) : State :=
  { s with strays := s.strays.filter (fun x => decide (x.path ≠ path) || decide (order < x.order)) }

/-- The bytes that an element was sent with. -/
def Copy.sentBytes (c : Copy) (n : Nat) : List Byte := ((c.sent.find? (fun x => x.elem == n)).getD {}).bytes

/-- An element of a cpyx.out reaches its ordering point: its bytes are written; a dropped one leaves bytes that the
manual does not define (R79, R80, R222). -/
def State.landElement (s : State) (k e n : Nat) (dropped : Bool) : State :=
  let c := s.copyAt k e
  let l := if dropped then s.openBytes 64 else c.sentBytes n
  ((((s.clearPath (pathOf k c) c.order).writeFar (s.farPlace k c n) l).elementDone k e n) |> fun u =>
    if dropped then u.countDrop k else u)

/-- The lowest element sent and not acknowledged. -/
def Copy.firstSent (c : Copy) : Option Nat :=
  c.sent.foldl (fun o e => match o with
    | none => some e.elem
    | some n => some (min n e.elem)) none

/-- A write that nobody waits for lands after all, unless an older copy of its path is outstanding; what was left on the
path before it can land no more (R80, R98, R223). -/
def State.landStray (s : State) (n : Nat) : State :=
  match s.strays[n]? with
  | some x =>
    if (s.tile (x.path / 2 ^ 14)).olderOn (x.path / 2 ^ 14) x.path x.order then s
    else
      let rest := (s.strays.zipIdx.filter (fun y => decide (y.1.path ≠ x.path) || decide (x.order < y.1.order)
        || (decide (x.order = y.1.order) && decide (n < y.2)))).map (fun y => y.1)
      ({ s with strays := rest } : State).writeFar x.place x.bytes
  | none => s

/-- The acknowledgement of an element enters the input log: a replay marks the element done and writes nothing outside. -/
def State.logAck (s : State) (k e n : Nat) : State :=
  s.log k { ty := 7, slot := (s.copyAt k e).owner, obj := e, event := some (.cpyxElementAck, { k := k, e := e, j := n })
            bytes := payload [e, (s.copyAt k e).id.toNat] }

/-- CPYX_ELEMENT_ACK: the ordering point of a port acknowledges the next element of a cpyx.out; entries from 16 on name
elements of aborted copies that land late. -/
def execCpyxElementAck (s : State) : Out :=
  let k := s.arg.k
  let e := s.arg.e
  let c := s.copyAt k e
  if 16 ≤ e then .next (s.landStray (e - 16))
  else if c.kind = .xout && (s.tile k).pathClear k c && !s.replaying k then
    if s.presenting then .next (s.elementDone k e s.arg.j)
    else if !s.copyLive k c then .next s
    else
      match c.firstSent with
      | some n => .next ((s.logAck k e n).landElement k e n false)
      | none => .next s
  else .next s

/-- An element of a cpyx.in is to be asked for again: what arrived of it is discarded. -/
def Copy.unask (c : Copy) (n : Nat) : Copy :=
  { c with
    sent := c.sent.filter (fun x => x.elem != n), early := dropUnits c.early n
    wrote := c.wrote.filter (fun u => u / 8 != n) }

/-- An element of a cpyx.in is being written. -/
def Copy.begun (c : Copy) (n : Nat) : Bool := c.wrote.any (fun u => u / 8 == n)

/-- The data of an element of a cpyx.in is written at the tile, unless its page has lost W (R71); an aborted copy that
meets such a page takes the element as done and raises no fault (R223, log entry 92). -/
def State.takeData (s : State) (k e n : Nat) (l : List Byte) : State :=
  let c := s.copyAt k e
  let t := s.walkFor k (c.localAt n) 64
  match (if c.begun n then none else s.checkPages k (c.localAt n) 64 false true) with
  | some f =>
    if c.st = 2 then t.elementDone k e n
    else (t.updCopyAt k e (fun c => c.unask n)).pauseCopy k e 2 (f.ofCopy c)
  | none => (t.writeUnits k (c.localAt n) c.wrote (8 * n) l).elementDone k e n

/-- One 8-byte unit of an element of a cpyx.in that was sent for: read outside ahead of the rest; or written at the tile,
once the element `l` has arrived (R75, R79). -/
def State.takeUnit (s : State) (k e n u : Nat) (l : List Byte) (write : Bool) : State :=
  let c := s.copyAt k e
  if !c.begun n && (s.checkPages k (c.localAt n) 64 false true).isSome then s
  else if !write then s.updCopyAt k e (fun c => { c with early := Sparse.set c.early (8 * n + u) l })
  else
    (s.writeUnits k (c.localAt n + 8 * u) c.wrote (8 * n + u) (unitOf l u)).updCopyAt k e
      (fun c => { c with early := readUnits c.early n l, wrote := (8 * n + u) :: c.wrote })

/-- CPYX_READ_DATA_ARRIVES: the data of an element that was sent for arrives, or with c = 1 or 2 unit p of it ahead of
the rest; of any other it is discarded (R98). An aborted copy takes it too: its element was already sent. A replay takes
the bytes of its log. -/
def execCpyxReadDataArrives (s : State) : Out :=
  let k := s.arg.k
  let e := s.arg.e
  let n := s.arg.j
  let u := s.arg.p % 8
  let c := s.copyAt k e
  if c.kind = .xin && c.sent.any (fun x => x.elem == n) && !s.replaying k && (s.presenting || s.copyLive k c)
      && (s.arg.c = 1 || !s.wellWaits k (c.localAt n)) then
    let l := if s.presenting then s.arg.bytes
      else if s.arg.c = 1 then mixUnits c.early (8 * n + u) (s.readFar (s.farPlace k c n + 8 * u) 8)
      else mixUnits c.early (8 * n) (s.readFar (s.farPlace k c n) 64)
    let t := s.log k {
      ty := if s.arg.c = 0 then 7 else 0, slot := c.owner, obj := e, bytes := payload [e, c.id.toNat] ++ l,
      event := some (.cpyxReadDataArrives, { s.arg with bytes := l }) }
    .next (if s.arg.c = 0 then t.takeData k e n l else t.takeUnit k e n u l (s.arg.c = 2))
  else .next s

/-- Nanoseconds since a time. -/
def State.since (s : State) (t : Word) : Nat := s.time.toNat - t.toNat

/-- 10 us, within which an aborted or paused cpyx waits for its acknowledgements (R98, R223). -/
def ackWait : Nat := 10000

/-- The writes that a cpyx.out has sent and that may land though they are not waited for; a replay sends none. -/
def State.leaveStrays (s : State) (k : Nat) (c : Copy) : State :=
  if c.kind = .xout && !s.presenting then
    { s with strays := s.strays ++ c.sent.map (fun x =>
        { path := pathOf k c, order := c.order, place := s.farPlace k c x.elem, bytes := x.bytes }) }
  else s

/-- CPYX_WATCHDOG_EXPIRY: an element is not acknowledged within wdl; the copy pauses and its issuer parks (R86, R222). -/
def execCpyxWatchdogExpiry (s : State) : Out :=
  let k := s.arg.k
  let e := s.arg.e
  let c := s.copyAt k e
  let wdl := (s.tile k).wdl.toNat
  if c.isExternal && c.st = 0 && !c.held && s.engineRuns k && wdl ≠ 0
      && (s.presenting || c.sent.any (fun x => decide (wdl ≤ s.since x.when_))) then
    .next ((((s.leaveStrays k c).logEngine .cpyxWatchdogExpiry e c.id.toNat).finishCopy k (fun _ _ => true) e).pauseCopy k e 5
      { code := codeWatchdog, aux := BitVec.ofNat 64 (c.id.toNat + c.port.toNat * 65536) })
  else .next s

/-- CPYX_ABORT_TIMEOUT: 10 us after its abort a cpyx is complete; what it sent may still land (R223). -/
def execCpyxAbortTimeout (s : State) : Out :=
  let k := s.arg.k
  let e := s.arg.e
  let c := s.copyAt k e
  if c.isExternal && c.st = 2 && !s.replaying k && (s.presenting || ackWait ≤ s.since c.since) then
    .next ((((s.leaveStrays k c).logEngine .cpyxAbortTimeout e c.id.toNat).finishCopy k (fun _ _ => true) e).endCopy k e)
  else .next s

/-- What a cpyx has sent is recorded as not done: outbound it is sent again with the same bytes (R98). -/
def Copy.unsend (c : Copy) : Copy :=
  { c with sent := [], kept := if c.kind = .xout then c.kept.filter (fun x => !(c.sent.any (fun y => y.elem == x.elem))) ++ c.sent
      else c.kept, early := if c.kind = .xin then [] else c.early, wrote := [] }

/-- CPYX_PAUSE_ACK_TIMEOUT: 10 us after a whole-tile freeze, elements without an acknowledgement are recorded as not
done; a write among them may land all the same, so it may reach its ordering point twice (R98). -/
def execCpyxPauseAckTimeout (s : State) : Out :=
  let k := s.arg.k
  let e := s.arg.e
  let c := s.copyAt k e
  if c.isExternal && c.held && c.st ≠ 2 && !s.replaying k && (s.presenting || ackWait ≤ s.since c.since) then
    .next ((((s.leaveStrays k c).logEvent k 0 .cpyxPauseAckTimeout none).finishCopy k (fun _ _ => true) e).updCopyAt k e
      Copy.unsend)
  else .next s

/-! Drops (R45, R80, R222). -/

/-- A dropped element of a cpyx: zeros at the tile, undefined bytes outside; the copy goes on. -/
def State.dropElement (s : State) (k e n : Nat) : State :=
  let c := s.copyAt k e
  if !(c.sent.any (fun x => x.elem == n)) || c.begun n || s.replaying k || (c.kind = .xin && s.wellWaits k (c.localAt n)) then s
  else if c.kind = .xout then (s.logAck k e n).landElement k e n true
  else
    ((s.log k { ty := 7, slot := c.owner, obj := e, bytes := payload [e, c.id.toNat] ++ List.replicate 64 0, event := some (
        .cpyxReadDataArrives, { k := k, e := e, j := n, bytes := List.replicate 64 0 }) }).takeData k e n (List.replicate 64 0)).countDrop k

/-- DELIVERY_FAILS: a message, with `ok` the data landing at an end, with c = 1 an element of a cpyx, or with c = 2 a
codeword to another panel cannot be delivered after every retry (R45, R222). A replay presents the sides that its log names. -/
def execDeliveryFails (s : State) : Out :=
  if s.presenting then .next (s.arg.bad.foldl (fun t e => t.dropAt e.1 e.2 s.arg.j) s)
  else if s.arg.c = 1 then .next (s.dropElement s.arg.k s.arg.e s.arg.j)
  else if s.arg.c = 2 then
    match s.farOut[s.arg.n]? with
    | some c => .next (s.dropAll (c.flits.map (fun f => f.msg)))
    | none => .next s
  else if s.arg.ok then
    match (s.endAt s.arg.k s.arg.e).inbuf with
    | some m => .next (s.dropChannel m.src m.dst)
    | none => .next s
  else
    match s.msgs[s.arg.n]? with
    | some m => if m.kind = .close || 256 ≤ m.dst.idx then .next s else .next (s.dropChannel m.src m.dst)
    | none => .next s

/-! Pumps. -/

/-- A pump prefetches at most 8 elements ahead of the pop (R273). -/
def fetchAhead : Nat := 8

/-- The first element of an input pump neither popped nor fetched, among the next 8. R199 lets a pump prefetch any
element; that it takes the lowest is the model's choice (log entry 91). -/
def Pump.nextFetch (u : Pump) : Option Nat :=
  ((List.range fetchAhead).map (u.pos.toNat + ·)).find? (fun n =>
    decide (n < u.count.toNat) && (Sparse.get u.fetched n).isNone)

/-- A pump with an element prefetched, or one unit of it read ahead (R75). -/
def State.fetchInto (s : State) (k n : Nat) (u : Pump) : Pump :=
  if s.arg.c = 1 then
    { u with early := Sparse.set u.early (8 * n + s.arg.j % 8) (s.readBytes k (u.place n + 8 * (s.arg.j % 8)) 8) }
  else { u with fetched := Sparse.set u.fetched n (some (s.elementAt k u n)), early := dropUnits u.early n }

/-- INPUT_PUMP_PREFETCH: an input pump reads its next element, or with c = 1 unit j of it; it never faults (R71, R200). -/
def execInputPumpPrefetch (s : State) : Out :=
  let k := s.arg.k
  let q := s.arg.q
  let u := (s.procAt k q).pump s.arg.p
  if u.bound && !u.out && s.engineRuns k && (s.tile k).freeze.isNone then
    match u.nextFetch with
    | some n =>
      if (s.checkPages k (u.place n) 64 true false).isSome then .next (s.walkFor k (u.place n) 64)
      else
        .next (((s.logEngine .inputPumpPrefetch s.arg.p 0).walkFor k (u.place n) 64).updProcAt k q (fun p =>
          p.updPump s.arg.p (s.fetchInto k n)))
    | none => .next s
  else .next s

/-- The whole-tile freeze of a tile has come to rest. -/
def VTile.quiescent (t : VTile) : Bool :=
  match t.freeze with
  | some f => decide (f.stage = .quiescent)
  | none => false

/-- A drain meets a page without W: it stops, and its binder parks (R71). -/
def State.stopDrain (s : State) (k q p : Nat) (f : Flt) : State :=
  (s.updProcAt k q (fun c => c.updPump p (fun u => { u with stopped := true }))).engineFault k q
    { code := f.code, src := 3, objk := 3, obj := BitVec.ofNat 8 p, addr := f.addr, aux := f.aux }

/-- One unit of the oldest appended element is written ahead of the rest (R75). -/
def State.drainUnit (s : State) (k q p : Nat) (u : Pump) (n : Nat) (v : Vec) : State :=
  let i := 8 * n + s.arg.j % 8
  (s.writeUnits k (u.place n + 8 * (s.arg.j % 8)) u.wrote i (unitOf (toBytes 64 v.toNat) (s.arg.j % 8))).updProcAt k q
    (fun c => c.updPump p (fun u => { u with wrote := i :: u.wrote }))

/-- OUTPUT_PUMP_WRITE: an output pump writes its oldest appended element (R200), or with c = 1 unit j of it. -/
def execOutputPumpWrite (s : State) : Out :=
  let k := s.arg.k
  let q := s.arg.q
  let u := (s.procAt k q).pump s.arg.p
  if u.bound && u.out && !u.stopped && s.engineRuns k && !(s.tile k).quiescent then
    match u.pend with
    | [] => .next s
    | (n, v) :: _ =>
      if s.wellWaits k (u.place n) then .next s
      else
      let t := (s.logEngine .outputPumpWrite s.arg.p 0).walkFor k (u.place n) 64
      match (if u.wrote.isEmpty then s.checkPages k (u.place n) 64 false true else none) with
      | some f => .next (t.stopDrain k q s.arg.p f)
      | none =>
        if s.arg.c = 1 then .next (t.drainUnit k q s.arg.p u n v)
        else
          .next (((t.writeUnits k (u.place n) u.wrote (8 * n) (toBytes 64 v.toNat)).updProcAt k q (fun c =>
            c.updPump s.arg.p Pump.written)).settleAt k)
  else .next s

end Sys2Proof.Machine
end

