-- ==== Sys2Proof/Machine/Places.lean ====
section
/-! DEFINITION. Where vector loads and stores access memory: their checks and the events of which they consist, and what goes
ahead of a scalar access of the same tc (R74, R191, R192). -/

namespace Sys2Proof.Machine

/-- The access of vld and vst: all 64 bytes, whatever the mask (R191). -/
def vldAccess (g : GReg) (a : Reg) (o : BitVec 5) (wr : Bool) : Access :=
  { g := g, reg := a, off := o.toInt * 64, size := 64, perms := if wr then permS else permL, align := 64, rd := !wr,
    wr := wr }

/-- The bytes of a lane at its address. -/
def laneBytes (w : Nat) (v : Vec) (e : Nat × Nat) : Nat × List Byte := (e.2, toBytes (w / 8) (lane v w e.1))

/-- The events of a read of 64 bytes: one for each 8 bytes, lowest first (R74). -/
def octets (a : Nat) : List (Nat × Nat) := (List.range 8).map (fun u => (a + 8 * u, 8))

/-- The events of a store of the lanes of a mask to 64 bytes: one for each 8 bytes, of its enabled lanes (R74, R191). -/
def octetWrites (w : Nat) (v : Vec) (a : Nat) (l : List Nat) : List (List (Nat × List Byte)) :=
  (List.range 8).map (fun u =>
    (l.filter (fun i => decide (w / 8 * i / 8 = u))).map (fun i => laneBytes w v (i, a + w / 8 * i)))

/-- The enabled lanes of a mask. -/
def enabledLanes (m : Word) (w : Nat) : List Nat := (List.range (512 / w)).filter (enabled m w)

/-- The access of one element at an offset from the cursor (R192). -/
def elemAccess (g : GReg) (a : Reg) (w : Nat) (off : Int) (wr : Bool) : Access :=
  { g := g, reg := a, off := off, size := w / 8, perms := if wr then permS else permL, align := w / 8, rd := !wr,
    wr := wr }

/-- The addresses of the enabled lanes, or the first fault in ascending lane order (R192). -/
def State.elemPlaces (s : State) (f : Nat → Access) : List Nat → Except Flt (List (Nat × Nat))
  | [] => .ok []
  | i :: r =>
    match s.check (f i) with
    | .error e => .error e
    | .ok a =>
      match s.elemPlaces f r with
      | .error e => .error e
      | .ok l => .ok ((i, a) :: l)

/-- The events of an element store: one for each element, in ascending lane order (R74, R192). -/
def elemWrites (w : Nat) (v : Vec) (l : List (Nat × Nat)) : List (List (Nat × List Byte)) :=
  l.map (fun e => [laneBytes w v e])

/-- The events of an element load, in ascending lane order (R74, R192). -/
def elemReads (w : Nat) (l : List (Nat × Nat)) : List (Nat × Nat) := l.map (fun e => (e.2, w / 8))

/-- The fault of an offset register that pops: a missing page right; or at its count, after the checks of ga that need
no offset, when a lane is enabled (R82, log entry 18). -/
def State.offsetFault (s : State) (a b : Reg) (m : MReg) (t : LaneTy) (wr : Bool) : Option Flt :=
  match s.popPage b with
  | some e => some e
  | none =>
    match s.popEmpty b with
    | none => none
    | some e =>
      if (enabledLanes (s.m m) (laneBits t)).isEmpty then some e
      else
        let c := elemAccess (s.g a) a (laneBits t) 0 wr
        if !c.g.tag then some (c.flt codeCapTag)
        else if c.g.perms &&& c.perms ≠ c.perms then some (c.flt codeCapPerm)
        else some e

/-- The offsets of the lanes from a register. -/
def laneOffset (v : Vec) (t : LaneTy) (i : Nat) : Int := lane v (laneBits t) i

/-- The events of an element load or store, when it raises no fault. -/
def State.elemPlan (s : State) (a : Reg) (m : MReg) (t : LaneTy) (wr : Bool) (d : Reg) (off : Nat → Int) : Option Ahead :=
  match s.elemPlaces (fun i => elemAccess (s.g a) a (laneBits t) (off i) wr) (enabledLanes (s.m m) (laneBits t)) with
  | .error _ => none
  | .ok l => some (if wr then { writes := elemWrites (laneBits t) (s.v d) l } else { reads := elemReads (laneBits t) l })

/-- Registers that pop deliver an element already prefetched: what it is does not change before the issue. -/
def State.popsSettled (s : State) (reads : List Reg) : Bool :=
  reads.all (fun r => !s.proc.pops r || (Sparse.get (s.proc.pump (pumpNum r)).fetched (s.proc.pump (pumpNum r)).pos.toNat).isSome)

/-- The v registers that a vector load or store reads (R191, R192). -/
def vecReads (i : Instr) : List Reg :=
  match i with
  | .vst d _ _ _ _ | .vsts d _ _ _ _ => [d]
  | .vgat _ _ b _ _ => [b]
  | .vsct d _ b _ _ => [b, d]
  | _ => []

/-- The events of a vector load or store of the executing context, when it raises no fault (R191, R192). -/
def State.vecPlan (s : State) (i : Instr) : Option Ahead :=
  if !s.popsSettled (vecReads i) then none else
  match i with
  | .vld d a o _ _ =>
    match s.check (vldAccess (s.g a) a o false), s.pumpFault [] [d] with
    | .ok addr, none => some { reads := octets addr }
    | _, _ => none
  | .vst d a o m t =>
    match s.check (vldAccess (s.g a) a o true), s.pumpFault [d] [] with
    | .ok addr, none => some { writes := octetWrites (laneBits t) (s.v d) addr (enabledLanes (s.m m) (laneBits t)) }
    | _, _ => none
  | .vlds d a b m t =>
    if (s.pumpFault [] [d]).isSome then none else s.elemPlan a m t false d (fun i => (s.x b).toInt * i)
  | .vsts d a b m t =>
    if (s.pumpFault [d] []).isSome then none else s.elemPlan a m t true d (fun i => (s.x b).toInt * i)
  | .vgat d a b m t =>
    if (s.offsetFault a b m t false).isSome || (s.pumpFault [b] [d]).isSome then none
    else s.elemPlan a m t false d (laneOffset (s.v b) t)
  | .vsct d a b m t =>
    if (s.offsetFault a b m t true).isSome || (s.pumpFault [b, d] []).isSome then none
    else s.elemPlan a m t true d (laneOffset (s.v b) t)
  | _ => none

/-- The access of ldc. -/
def ldcAccess (g : GReg) (a : Reg) (i : BitVec 15) : Access := { loadAccess g a i 16 with align := 16 }

/-- The access of stc: its perms are fixed by the value's tag and the target address before any check (R67). -/
def stcAccess (g : GReg) (a : Reg) (i : BitVec 15) (tagged : Bool) : Access :=
  { storeAccess g a i 16 with
    align := 16
    perms := if tagged && decide ((storeAccess g a i 16).addr < wellLo) then permS ||| permSC else permS }

/-- Bytes of an atomic: 4 for .w, 8 for .d. -/
def atomicSize (z : Bool) : Nat := if z then 8 else 4

/-- The access of a scalar load, store or atomic of the executing context. -/
def State.scalarAccess (s : State) (i : Instr) : Option Access :=
  match i with
  | .ldb _ a o | .ldbn _ a o => some (loadAccess (s.g a) a o 1)
  | .ldh _ a o | .ldhn _ a o => some (loadAccess (s.g a) a o 2)
  | .ldw _ a o | .ldwn _ a o => some (loadAccess (s.g a) a o 4)
  | .ldd _ a o => some (loadAccess (s.g a) a o 8)
  | .stb _ a o => some (storeAccess (s.g a) a o 1)
  | .sth _ a o => some (storeAccess (s.g a) a o 2)
  | .stw _ a o => some (storeAccess (s.g a) a o 4)
  | .std _ a o => some (storeAccess (s.g a) a o 8)
  | .ldc _ a o => some (ldcAccess (s.g a) a o)
  | .stc d a o => some (stcAccess (s.g a) a o (s.g d).tag)
  | .amoadd _ a _ z | .amoand _ a _ z | .amoor _ a _ z | .amoxor _ a _ z | .amomin _ a _ z | .amomax _ a _ z
  | .amominn _ a _ z | .amomaxn _ a _ z | .amoswp _ a _ z | .cas _ a _ z => some (atomicAccess (s.g a) a (atomicSize z))
  | _ => none

/-- The executing context is at a scalar access that raises no fault. -/
def State.accesses (s : State) (i : Instr) : Bool :=
  match s.scalarAccess i with
  | none => false
  | some a => match s.check a with
    | .ok _ => true
    | .error _ => false

end Sys2Proof.Machine
end

