-- ==== Sys2Proof/Machine/Race.lean ====
section
/-! DEFINITION. Accesses of several events: a misaligned scalar access, a byte at a time, and a vector access, 8 bytes at a
time; what engines, pumps and blocks of the tile, and the vector access of the same tc, do between them; and how a replay
presents that again (R74, R173, R332). -/

namespace Sys2Proof.Machine

/-! Presenting an entry of the log. -/

/-- The state an outcome leads to. -/
def stateOf (o : Out) (s : State) : State :=
  match o with
  | .next t => t
  | _ => s

/-- The fabric with a logged message standing at the vtile that took it; the data of a last byte is put at its end. -/
def State.placeMsg (s : State) (k : Nat) (e : LogEntry) : State :=
  match e.msg, e.event with
  | some m, some (.lastByteWritten, a) => s.updEnd k a.e (fun x => { x with inbuf := some m })
  | some m, _ =>
    { s with msgs := { m with tile := (s.tile k).ptile, parked := false, held := false, back := false } :: s.msgs }
  | none, _ => s

/-- An entry of the log is presented as `f` takes it, at the package time of its logging; package time itself goes on as it
was. -/
def State.presentAs (s : State) (k : Nat) (e : LogEntry) (f : State → State) : State :=
  let u := f { s.placeMsg k e with
    presenting := true
    time := e.when_
    arg := match e.event with
      | some (_, a) => a
      | none => s.arg }
  { u with
    presenting := false
    time := s.time
    arg := s.arg
    msgs := if s.msgs.length < u.msgs.length then u.msgs.drop 1 else u.msgs }

/-- The replay without one of its entries. -/
def VTile.dropEntry (t : VTile) (e : LogEntry) : VTile := { t with replay := t.replay.map (fun l => l.erase e) }

/-! Stores. -/

/-- Bytes stored by a context of the executing vtile, with the tag of their unit where it sets one; the monitor's are logged
for a replay, in which it does not run (R332, log entry 116). -/
def State.storeBy (s : State) (q a : Nat) (l : List Byte) (tag : Bool) : State :=
  let t := if q = monitorCtx then s.log s.cur.vt { mon := some (.store a l tag) } else s
  let u := t.writeBytes s.cur.vt a l
  if tag then u.updHere (fun v => { v with im := { v.im with tags := Sparse.set v.im.tags (a / 16) true } }) else u

/-- Bytes stored by the executing context. -/
def State.storeBytes (s : State) (a : Nat) (l : List Byte) : State := s.storeBy s.cur.who a l false

/-! The vector access of the same tc. -/

/-- The context whose vector access is the tile's next issue, while the executing context's scalar access has the A pipe. -/
def State.peer (s : State) : Option Nat :=
  if s.here.issuedA = some s.cur.who && s.here.issuedB.isNone then
    (s.here.choose false).filter (fun q => decide (q ≠ s.cur.who))
  else none

/-- That access: what is left of it, or all of it. -/
def State.peerAccess (s : State) (q : Nat) : Option Ahead :=
  match s.here.ahead with
  | some h => some h
  | none => (State.vecPlan { s with cur := { s.cur with who := q } } (s.here.issueNeeds q)).map (fun h => { h with who := q })

/-- The next event of a vector access, the executing context's or one that goes ahead. -/
def State.aheadEvent (s : State) (h : Ahead) : State :=
  match h.reads, h.writes with
  | (a, n) :: r, _ =>
    s.updHere (fun t => { t with ahead := some { h with reads := r, bytes := h.bytes ++ [s.readBytes s.cur.vt a n] } })
  | [], w :: r =>
    (w.foldl (fun t x => t.storeBy h.who x.1 x.2 false) s).updHere (fun t => { t with ahead := some { h with writes := r } })
  | [], [] => s

/-- The next event of the vector access of the same tc comes about now: logged, but for the monitor's, of which the stores
are. -/
def State.peerEvent (s : State) : State :=
  match s.peer.bind s.peerAccess with
  | some h =>
    if h.reads.isEmpty && h.writes.isEmpty then s
    else (if h.who = monitorCtx then s else s.log s.cur.vt { mon := some .peer }).aheadEvent h
  | none => s

/-! What comes between the events of an access. -/

/-- What a block of the executing vtile does between two events of an access: its units, and those that leave it, move. -/
def landNow (s : State) : Out :=
  if decide (s.arg.c = 3) && (s.msgs[s.arg.n]?).all (fun m => decide (m.src.vt ≠ s.cur.vt)) then .next s
  else execLastByteWritten s

/-- The events that read or write the memory of a tile beside its processes (R75). -/
def racing (i : Instr) : Option (State → Out) :=
  match i with
  | .matrixCommandComplete => some execMatrixCommandComplete
  | .copyElement => some execCopyElement
  | .cpyxReadDataArrives => some execCpyxReadDataArrives
  | .inputPumpPrefetch => some execInputPumpPrefetch
  | .outputPumpWrite => some execOutputPumpWrite
  | .lastByteWritten => some landNow
  | _ => none

/-- A context but for its pumps. -/
def Proc.butPumps (p : Proc) : Proc := { p with pumps := [] }

/-- An event leaves the executing context, and the one whose access goes ahead, as they were but for their pumps, and takes no
page from them. -/
def State.racesWith (t s : State) : Bool :=
  decide (t.proc.butPumps = s.proc.butPumps)
    && (match s.here.ahead with
        | some h => decide ((t.here.proc h.who).butPumps = (s.here.proc h.who).butPumps) && decide (t.here.pages = s.here.pages)
        | none => true)

/-- One of them comes about at the executing vtile between two events of an access; one that would change the contexts whose
accesses these are comes after the access. -/
def State.raceEvent (s : State) (e : Instr × EvArgs) : State :=
  match racing e.1 with
  | none => s
  | some f =>
    match f { s with arg := { e.2 with k := s.cur.vt } } with
    | .next t => if t.racesWith s then { t with arg := s.arg } else s
    | _ => s

/-- Entries logged from a place on came about before event `j` of the access of a context. -/
def VTile.markParts (t : VTile) (n who j : Nat) : VTile :=
  { t with log := t.log.take n ++ (t.log.drop n).map (fun e => { e with part := some (who, j) }) }

/-- One thing that comes about before event `j` of the executing context's access; a replay is to present it there. What comes
between the events of the monitor's is presented with its operations. -/
def State.raceItem (j : Nat) (s : State) (e : Option (Instr × EvArgs)) : State :=
  let t := match e with
    | none => s.peerEvent
    | some x => s.raceEvent x
  if s.inMonitor then t else t.updHere (fun v => v.markParts s.here.log.length s.cur.who j)

/-- An entry of a replay's log is presented between two events of an access. -/
def State.presentPart (s : State) (e : LogEntry) : State :=
  let t := s.updHere (fun v => v.dropEntry e)
  match e.event, e.mon with
  | some (i, _), _ =>
    match racing i with
    | some f => t.presentAs s.cur.vt e (fun u => stateOf (f u) u)
    | none => t
  | none, some (.store a l tag) => t.storeBy 0 a l tag
  | none, some .peer => t.peerEvent
  | none, _ => t

/-- The entry that a replay presents next before event `j` of the executing context's access. -/
def State.nextPart (s : State) (j : Nat) : Option LogEntry :=
  (s.here.replay.getD []).find? (fun e =>
    decide (e.part = some (s.cur.who, j)) && decide (e.tick.toNat ≤ s.here.tick.toNat))

/-- A replay presents what came about before event `j` of the executing context's access. -/
def State.presentParts (s : State) (j : Nat) : Nat → State
  | 0 => s
  | n + 1 =>
    match s.nextPart j with
    | some e => (s.presentPart e).presentParts j n
    | none => s

/-- What comes about before event `j` of the executing context's access: a free choice (log entries 3 and 115), or what a
replay's log holds. -/
def State.raceNow (s : State) (j : Nat) : State :=
  match s.here.replay with
  | some l => s.presentParts j l.length
  | none => (Config.between s.count (s.cur.vt * 16 + s.cur.who) j).foldl (State.raceItem j) s

/-- What comes about before event `j` of an access, when that is not its first. -/
def State.race (s : State) (j : Nat) : State := if j = 0 then s else s.raceNow j

/-- What comes about before the scalar access that a context has issued: events of the vector access of the same tc, and what
comes between those. With no such access, or where the scalar one faults, there is nothing that could not as well have come
before the issue. -/
def State.overtaken (s : State) (i : Instr) : State := if s.accesses i && s.peer.isSome then s.raceNow 0 else s

/-! The events of an access. -/

/-- The events of a read, each at its place and of its size, from event `j` on. -/
def State.readParts (s : State) (j : Nat) : List (Nat × Nat) → State × List (List Byte)
  | [] => (s, [])
  | (a, n) :: r =>
    let t := s.race j
    let u := t.readParts (j + 1) r
    (u.1, t.readBytes s.cur.vt a n :: u.2)

/-- The events of a write, each of some runs of bytes at their places, from event `j` on. -/
def State.writeParts (s : State) (j : Nat) : List (List (Nat × List Byte)) → State
  | [] => s
  | p :: r => (p.foldl (fun t x => t.storeBytes x.1 x.2) (s.race j)).writeParts (j + 1) r

/-- What the executing context's vector access has left, when events of it went ahead. -/
def State.myAhead (s : State) : Option Ahead := s.here.ahead.filter (fun h => decide (h.who = s.cur.who))

/-- The events of a vector read: those that went ahead, and the rest. -/
def State.readVector (s : State) (l : List (Nat × Nat)) : State × List (List Byte) :=
  match s.myAhead with
  | some h => ((s.readParts h.bytes.length h.reads).1, h.bytes ++ (s.readParts h.bytes.length h.reads).2)
  | none => s.readParts 0 l

/-- The events of a vector write: the rest of those that went ahead, or all. -/
def State.writeVector (s : State) (l : List (List (Nat × List Byte))) : State :=
  match s.myAhead with
  | some h => s.writeParts (l.length - h.writes.length) h.writes
  | none => s.writeParts 0 l

/-- The events of a scalar access: one when it is aligned, else one for each byte (R74, R173). -/
def scalarParts (a n : Nat) : List (Nat × Nat) :=
  if a % n = 0 then [(a, n)] else (List.range n).map (fun i => (a + i, 1))

/-- A scalar read of the executing context: the state after it, and its bytes. -/
def State.readScalar (s : State) (a n : Nat) : State × List Byte :=
  ((s.readParts 0 (scalarParts a n)).1, (s.readParts 0 (scalarParts a n)).2.flatten)

/-- A scalar write of the executing context. -/
def State.writeScalar (s : State) (a : Nat) (l : List Byte) : State :=
  s.writeParts 0 ((scalarParts a l.length).map (fun p => [(p.1, (l.drop (p.1 - a)).take p.2)]))

end Sys2Proof.Machine
end

