-- ==== Sys2Proof/Machine/LoadStore.lean ====
section
/-! DEFINITION. Scalar loads and stores, and capability loads and stores (R170 to R173, R67). -/

namespace Sys2Proof.Machine

/-- The value at an address of the executing context's vtile. -/
def State.value (s : State) (a n : Nat) : Nat := ofBytes (s.readBytes s.cur.vt a n)

/-- A scalar load: checked, read little-endian, extended, written as data (R170); a misaligned one reads its bytes one by
one (R173). -/
def State.loadTo (s : State) (d a : Reg) (i : BitVec 15) (size : Nat) (ext : Nat → Word) : Out :=
  .next (s.withAccess (loadAccess (s.g a) a i size) (fun addr t =>
    (t.readScalar addr size).1.put d (ext (ofBytes (t.readScalar addr size).2))))

/-- A scalar store: checked, the low bytes of gd written, tags cleared (R171); a misaligned one writes its bytes one by one
(R173). -/
def State.storeFrom (s : State) (d a : Reg) (i : BitVec 15) (size : Nat) : Out :=
  .next (s.withAccess (storeAccess (s.g a) a i size)
    (fun addr t => (t.writeScalar addr (toBytes size (s.x d).toNat)).next))

/-- ldb. -/
def execLdb (d a : Reg) (i : BitVec 15) (s : State) : Out := s.loadTo d a i 1 (sextBytes 1)
/-- ldbn. -/
def execLdbn (d a : Reg) (i : BitVec 15) (s : State) : Out := s.loadTo d a i 1 (BitVec.ofNat 64)
/-- ldh. -/
def execLdh (d a : Reg) (i : BitVec 15) (s : State) : Out := s.loadTo d a i 2 (sextBytes 2)
/-- ldhn. -/
def execLdhn (d a : Reg) (i : BitVec 15) (s : State) : Out := s.loadTo d a i 2 (BitVec.ofNat 64)
/-- ldw. -/
def execLdw (d a : Reg) (i : BitVec 15) (s : State) : Out := s.loadTo d a i 4 (sextBytes 4)
/-- ldwn. -/
def execLdwn (d a : Reg) (i : BitVec 15) (s : State) : Out := s.loadTo d a i 4 (BitVec.ofNat 64)
/-- ldd. -/
def execLdd (d a : Reg) (i : BitVec 15) (s : State) : Out := s.loadTo d a i 8 (BitVec.ofNat 64)
/-- stb. -/
def execStb (d a : Reg) (i : BitVec 15) (s : State) : Out := s.storeFrom d a i 1
/-- sth. -/
def execSth (d a : Reg) (i : BitVec 15) (s : State) : Out := s.storeFrom d a i 2
/-- stw. -/
def execStw (d a : Reg) (i : BitVec 15) (s : State) : Out := s.storeFrom d a i 4
/-- std. -/
def execStd (d a : Reg) (i : BitVec 15) (s : State) : Out := s.storeFrom d a i 8

/-- What ldc writes: 16 bytes, tagged when the unit lies in the tile store and is tagged and the capability has LC
(R67). -/
def State.capAt (s : State) (addr : Nat) (lc : Bool) : GReg :=
  { tag := decide (addr < wellLo) && Sparse.get s.here.im.tags (addr / 16) && lc,
    val := BitVec.ofNat 128 (s.value addr 16) }

/-- ldc. -/
def execLdc (d a : Reg) (i : BitVec 15) (s : State) : Out :=
  .next (s.withAccess (ldcAccess (s.g a) a i)
    (fun addr t => (t.wg d (t.capAt addr ((s.g a).perms &&& permLC != 0))).next))

/-- stc: the 16 bytes, and in the tile store the tag of a tagged value (R67), also in the monitor area when the monitor stores
there: the model's choice (log entry 119). -/
def execStc (d a : Reg) (i : BitVec 15) (s : State) : Out :=
  .next (s.withAccess (stcAccess (s.g a) a i (s.g d).tag) (fun addr t =>
    (t.storeBy t.cur.who addr (toBytes 16 (s.g d).val.toNat) ((s.g d).tag && decide (addr < wellLo))).next))

end Sys2Proof.Machine
end

