-- ==== Sys2Proof/Machine/Atomics.lean ====
section
/-! DEFINITION. The atomics (R174 to R176). -/

namespace Sys2Proof.Machine

/-- The old value of an atomic as gd receives it: sign-extended for .w (R174). -/
def atomicOld (z : Bool) (old : Nat) : Word := if z then BitVec.ofNat 64 old else sextBytes 4 old

/-- The low operand-size bits of a word, as a number. -/
def lowBits (z : Bool) (x : Word) : Nat := x.toNat % 2 ^ (8 * atomicSize z)

/-- An atomic: one event that reads, writes when told to, and returns the old value. `f old` is the new value to write,
or none (R174, R175). -/
def State.atomic (s : State) (d a : Reg) (z : Bool) (f : Nat → Option Nat) : Out :=
  .next (s.withAccess (atomicAccess (s.g a) a (atomicSize z)) (fun addr t =>
    let old := t.value addr (atomicSize z)
    (match f old with
      | some v => t.storeBytes addr (toBytes (atomicSize z) v)
      | none => t).put d (atomicOld z old)))

/-- A signed reading of an operand-size number. -/
def signedOf (z : Bool) (v : Nat) : Int := (BitVec.ofNat (8 * atomicSize z) v).toInt

/-- amoadd. -/
def execAmoadd (d a b : Reg) (z : Bool) (s : State) : Out := s.atomic d a z (fun old => some (old + lowBits z (s.x b)))
/-- amoand. -/
def execAmoand (d a b : Reg) (z : Bool) (s : State) : Out := s.atomic d a z (fun old => some (old &&& lowBits z (s.x b)))
/-- amoor. -/
def execAmoor (d a b : Reg) (z : Bool) (s : State) : Out := s.atomic d a z (fun old => some (old ||| lowBits z (s.x b)))
/-- amoxor. -/
def execAmoxor (d a b : Reg) (z : Bool) (s : State) : Out := s.atomic d a z (fun old => some (old ^^^ lowBits z (s.x b)))
/-- amomin, signed. -/
def execAmomin (d a b : Reg) (z : Bool) (s : State) : Out :=
  s.atomic d a z (fun old => some (if signedOf z old ≤ signedOf z (lowBits z (s.x b)) then old else lowBits z (s.x b)))
/-- amomax, signed. -/
def execAmomax (d a b : Reg) (z : Bool) (s : State) : Out :=
  s.atomic d a z (fun old => some (if signedOf z (lowBits z (s.x b)) ≤ signedOf z old then old else lowBits z (s.x b)))
/-- amominn, unsigned. -/
def execAmominn (d a b : Reg) (z : Bool) (s : State) : Out :=
  s.atomic d a z (fun old => some (if old ≤ lowBits z (s.x b) then old else lowBits z (s.x b)))
/-- amomaxn, unsigned. -/
def execAmomaxn (d a b : Reg) (z : Bool) (s : State) : Out :=
  s.atomic d a z (fun old => some (if lowBits z (s.x b) ≤ old then old else lowBits z (s.x b)))
/-- amoswp. -/
def execAmoswp (d a b : Reg) (z : Bool) (s : State) : Out := s.atomic d a z (fun _ => some (lowBits z (s.x b)))
/-- cas: written only when the old value equals the comparand in gd (R174). -/
def execCas (d a b : Reg) (z : Bool) (s : State) : Out :=
  s.atomic d a z (fun old => if old = lowBits z (s.x d) then some (lowBits z (s.x b)) else none)

end Sys2Proof.Machine
end

