-- ==== Sys2Proof/Machine/Faults.lean ====
section
/-! DEFINITION. Translation walks, entries and the translation window; the release of page waiters, deferred records, and
the monitor's waits, timeout and host fault ring; the driver's answers (R70, R72, R87 to R92, R249, R308, R313). -/

namespace Sys2Proof.Machine

/-! Walks (R70). -/

/-- The translation cache has 256 entries. -/
def tlbSize : Nat := 256

/-- A translation enters the cache; a full one first loses an entry, which one the manual leaves open. -/
def VTile.cacheEntry (t : VTile) (page victim : Nat) : VTile :=
  let e := Sparse.get t.pt page
  let old := if tlbSize ≤ t.tlb.length && Sparse.get t.tlb page = 0 then t.tlb.eraseIdx (victim % tlbSize) else t.tlb
  if entryM e && (entryR e || entryW e) then { t with tlb := Sparse.set old page e } else t

/-- A walk returns: its result is cached, or discarded when a tlbinv met it in flight (R70, R249). -/
def VTile.walkDone (t : VTile) (page victim : Nat) : VTile :=
  let u := { t with walks := t.walks.filter (fun g => g != page), discard := t.discard.filter (fun g => g != page) }
  if t.discard.contains page then u else u.cacheEntry page victim

/-- A walk may return now: it is in flight; a replay takes those of its log. -/
def State.mayReturn (s : State) (k page : Nat) : Bool :=
  if s.presenting then (s.tile k).walks.contains page else (s.tile k).walking.contains page && !s.replaying k

/-- TRANSLATION_WALK_COMPLETE; with ok the cache loses the entry of page j instead: until a tlbinv an access may use the
old or the new entry, and when an entry leaves the cache the manual leaves open (R70, log entry 13). -/
def execTranslationWalkComplete (s : State) : Out :=
  let k := s.arg.k
  if s.arg.ok then
    if s.replaying k then .next s
    else
      .next ((s.logEvent k 0 .translationWalkComplete none).retable k (fun t => { t with tlb := Sparse.drop t.tlb s.arg.j }))
  else if s.mayReturn k s.arg.j then
    .next ((s.logEvent k 0 .translationWalkComplete none).retable k (fun t => t.walkDone s.arg.j s.arg.e))
  else .next s

/-! Entries and the translation window (R92, R313). -/

/-- TRANSLATION_ENTRY_APPLIED: the die applies or refuses the entry that the monitor submitted (R68, R92). -/
def execTranslationEntryApplied (s : State) : Out :=
  let k := s.arg.k
  match (s.tile k).monWait with
  | .entry page v => .next ((s.submitEntry k page.toNat v).updTile k (fun t => { t with monWait := .none }))
  | _ => .next s

/-- A new entry takes something away that the cache may still hold. -/
def takesAway (old new : Word) : Bool :=
  entryM old && (!entryM new || (entryR old && !entryR new) || (entryW old && !entryW new)
    || decide (entryStk old ≠ entryStk new) || decide (entryFrame old ≠ entryFrame new))

/-- The window's registers changed. -/
def State.updTen (s : State) (f : Tenancy → Tenancy) : State := { s with ten := f s.ten }

/-- An 8 B register after an aligned access: the whole, or the half that a 4 B access covers (R304). -/
def halfWrite (old : Word) (four : Bool) (hi : Nat) (v : Word) : Word :=
  if !four then v
  else if hi = 0 then old.extractLsb' 32 32 ++ v.extractLsb' 0 32
  else v.extractLsb' 0 32 ++ old.extractLsb' 0 32

/-- A write of the window applied to the entry as it stands then: refused as R68 says, or busy until the page's tlbinv when
it takes something away. -/
def State.windowApply (s : State) (w : WindowWrite) : State :=
  let k := w.vt
  let page := w.page
  let v := halfWrite (Sparse.get (s.tile k).pt page) w.four w.hi w.value
  if s.refusesEntry k v then s.updTen (fun t => { t with twrefused := true, twpage := BitVec.ofNat 16 page })
  else
    let old := Sparse.get (s.tile k).pt page
    let t := s.mapPage k page v
    if takesAway old v then t.updTen (fun t => { t with twbusy := some (k, page) }) else t

/-- The writes that waited are applied in arrival order, up to one that makes the window busy. -/
def State.windowDrain (s : State) : Nat → State
  | 0 => s
  | n + 1 =>
    match s.ten.twbusy, s.ten.twwaiting with
    | none, w :: r => State.windowDrain ((s.updTen (fun t => { t with twwaiting := r })).windowApply w) n
    | _, _ => s

/-- The vtile whose table the window shows, if twsel names one of a resident tenant. -/
def State.windowVTile (s : State) : Option Nat :=
  let p := Sparse.get s.parts s.ten.twpart.toNat
  if (p.slotOf s.ten.twtenant.toNat).isSome && decide (s.ten.twvtile.toNat < p.tiles.length) then
    some (vtKey s.ten.twpart.toNat s.ten.twtenant.toNat s.ten.twvtile.toNat)
  else none

/-- TRANSLATION_WINDOW_WRITE: the driver writes the entry of page j, or with ok the half e of it. -/
def execTranslationWindowWrite (s : State) : Out :=
  match s.windowVTile with
  | none => .next s
  | some k =>
    if wellPages ≤ s.arg.j || s.up.reset || s.up.d3 || !s.up.hostLink || s.up.phase = 1 then .next s
    else
      let w : WindowWrite := { vt := k, page := s.arg.j, four := s.arg.ok, hi := s.arg.e, value := s.arg.v }
      if s.ten.twbusy.isSome then .next (s.updTen (fun t => { t with twwaiting := t.twwaiting ++ [w] }))
      else .next (s.windowApply w)

/-- A tlbinv of a page, or of all, is complete at a tile: the window is busy no more if it waited for it, for a vtile of
either tenant. -/
def State.windowFree (s : State) (k : Nat) (page : Option (BitVec 14)) : State :=
  match s.ten.twbusy with
  | some (j, g) =>
    if (s.tile j).ptile = (s.tile k).ptile && (page.isNone || page = some (BitVec.ofNat 14 g)) then
      (s.updTen (fun t => { t with twbusy := none })).windowDrain (s.ten.twwaiting.length + 1)
    else s
  | none => s

/-- No walk that a tlbinv awaits is in flight any more. -/
def VTile.walksBack (t : VTile) (page : Option (BitVec 14)) : Bool :=
  match page with
  | none => t.discard.isEmpty
  | some g => !t.discard.contains g.toNat

/-- TLBINV_COMPLETE: the walks it met have returned, and no translation of the page remains cached; what a walk begun
meanwhile brings is discarded too, so that the next access walks afresh (R249). -/
def execTlbinvComplete (s : State) : Out :=
  let k := s.arg.k
  match (s.tile k).monWait with
  | .tlbinv page =>
    if (s.tile k).walksBack page then
      .next ((s.retable k (fun t => { t.invalidate page with monWait := .none })).windowFree k page)
    else .next s
  | _ => .next s

/-! One per tc. -/

/-- PAGE_WAITER_RELEASE: one waiter of the resolved pages goes on (R72). -/
def execPageWaiterRelease (s : State) : Out := .next (s.updTile s.arg.k (fun t => t.releaseOne s.time))

/-- The oldest record that waits is written when the queue has room (R87). -/
def VTile.writeDeferred (t : VTile) (time : Word) : VTile :=
  match t.fqwait with
  | [] => t
  | r :: l => if t.held < 16 then { t with fqwait := l }.writeRec r time else t

/-- DEFERRED_FAULT_RECORD_WRITE. -/
def execDeferredFaultRecordWrite (s : State) : Out := .next (s.updTile s.arg.k (fun t => t.writeDeferred s.time))

/-! The monitor's waits. -/

/-- MONITOR_WAKE: an idle monitor with a reason to run issues again; with ok the driver writes the tile's request
register first (R89, R250). -/
def execMonitorWake (s : State) : Out :=
  if s.active s.arg.k then
    .next (s.updTile s.arg.k (fun t =>
      let u := if s.arg.ok && !s.up.reset && s.up.hostLink then { t with reqReg := true } else t
      if u.monWait = .idle && u.monRunnable then { u with monWait := .none, reqReg := false } else u))
  else .next s

/-- 10 ms, within which a monitor takes a disposition (R91). -/
def monLimit : Nat := 10000000

/-- When the oldest record held was written. -/
def VTile.oldestTime (t : VTile) : Option Word :=
  if t.held = 0 then none else t.recTimes[t.recTimes.length - t.held]?

/-- MONITOR_TIMEOUT: the oldest record held has waited 10 ms; waiting on a full host fault ring does not count (R91). -/
def execMonitorTimeout (s : State) : Out :=
  let t := s.tile s.arg.k
  match t.oldestTime with
  | none => .next s
  | some r =>
    if !t.hfqFull && !t.emergency && monLimit ≤ s.since r then .next (s.monitorFails s.arg.k) else .next s

/-! The host fault ring (R89, R92, R308). -/

/-- The ring of a tenant slot: base, log2 of its size, entries written, entries consumed. -/
def QBlock.ring (b : QBlock) (slot : Nat) : Nat × Nat × BitVec 32 × BitVec 32 :=
  if slot = 0 then (b.fqbase0.toNat, b.fqsize0.toNat, b.fqtl0, b.fqhd0)
  else (b.fqbase1.toNat, b.fqsize1.toNat, b.fqtl1, b.fqhd1)

/-- An entry written to the ring of a tenant slot. -/
def QBlock.countFault (b : QBlock) (slot : Nat) : QBlock :=
  if slot = 0 then { b with fqtl0 := b.fqtl0 + 1 } else { b with fqtl1 := b.fqtl1 + 1 }

/-- The full bit of a tenant slot's ring. -/
def QBlock.setFull (b : QBlock) (slot : Nat) (v : Bool) : QBlock :=
  if slot = 0 then { b with full0 := v } else { b with full1 := v }

/-- The MSI-X vector of host faults of a tenant (R302). -/
def faultVector (tenant : Nat) : Nat × Nat := if tenant = 0 then (0, 1) else (tenant, 0)

/-- A fault record from its 32 bytes (R85). -/
def FaultRec.ofBytes (l : List Byte) : FaultRec :=
  let n := Machine.ofBytes l
  { code := BitVec.ofNat 8 n, slot := BitVec.ofNat 3 (n / 2 ^ 8), src := BitVec.ofNat 4 (n / 2 ^ 16)
    obj := BitVec.ofNat 8 (n / 2 ^ 24), objk := BitVec.ofNat 2 (n / 2 ^ 32), pc := BitVec.ofNat 32 (n / 2 ^ 64)
    addr := BitVec.ofNat 32 (n / 2 ^ 96), time := BitVec.ofNat 64 (n / 2 ^ 128), aux := BitVec.ofNat 64 (n / 2 ^ 192) }

/-- The number of a fault record from its bytes. -/
def recSeq (l : List Byte) : BitVec 16 := BitVec.ofNat 16 (ofBytes ((l.drop 6).take 2))

/-- The time that the monitor waited for room does not count toward its limit. -/
def VTile.skipWait (t : VTile) (since now : Word) : VTile :=
  { t with
    hfqFull := false
    recTimes := t.recTimes.map (fun r => if r.toNat < since.toNat then r + (now - since) else now) }

/-- The monitor's wait ends; waiting for room ends with it (R86, R92). -/
def VTile.endWait (t : VTile) (now : Word) : VTile :=
  match t.monWait with
  | .hfq _ since => { (if t.hfqFull then t.skipWait since now else t) with monWait := .none }
  | _ => { t with monWait := .none }

/-- The monitor of a tile waits for room in the ring of a tenant. -/
def VTile.waitsFor (t : VTile) (tenant : Nat) : Bool :=
  t.hfqFull && !t.lost &&
    (match t.monWait with
     | .hfq a _ => decide (t.hfqTenant a = tenant)
     | _ => false)

/-- A tile of a partition waits for room in the ring of the tenant of a slot. -/
def State.ringWaits (s : State) (q slot : Nat) : Bool :=
  let p := Sparse.get s.parts q
  s.vts.any (fun e => decide (e.2.part = q) && s.active e.1 && (p.tenants.any (fun t =>
    decide (p.slotOf t.toNat = some slot) && e.2.waitsFor t.toNat)))

/-- The full bits of a partition's rings show whether an append waits (R308). -/
def State.refreshFull (s : State) (q : Nat) : State :=
  s.updQueue q (fun b => { b with full0 := s.ringWaits q 0, full1 := s.ringWaits q 1 })

/-- The 64 B of the monitor area appended to the ring of a tenant slot. -/
def State.appendFault (s : State) (k addr slot tenant : Nat) : State :=
  let t := s.tile k
  let l := Memory.read t.im.store addr 64
  let r := (Sparse.get s.queues t.part).ring slot
  let dst := vtKey t.part tenant (ofBytes ((l.drop 32).take 2))
  let s1 : State := { s with
    hostMem := Memory.write s.hostMem (tenant * 2 ^ 64 + r.1 + 64 * (r.2.2.1.toNat % 2 ^ r.2.1)) l }
  let s2 := ((s1.updQueue t.part (fun b => b.countFault slot)).updTile k (fun t => t.endWait s.time)).refreshFull t.part
  (s2.updTile dst (fun t => { t with forwarded := t.forwarded ++ [(recSeq l, FaultRec.ofBytes l)] })).raiseVector
    (faultVector tenant)

/-- A ring found full: the monitor waits, and the driver is told (R92). -/
def State.ringFull (s : State) (k addr slot tenant : Nat) : State :=
  if (s.tile k).hfqFull then s
  else
    ((s.updTile k (fun t => { t with hfqFull := true, monWait := .hfq addr s.time })).updQueue (s.tile k).part
      (fun b => b.setFull slot true)).raiseVector (faultVector tenant)

/-- HFQ_APPEND_COMPLETE: the entry is written to host memory, or waits while the ring is full. -/
def execHfqAppendComplete (s : State) : Out :=
  let k := s.arg.k
  let t := s.tile k
  match t.monWait with
  | .hfq addr _ =>
    let tenant := t.hfqTenant addr
    match (Sparse.get s.parts t.part).slotOf tenant with
    | none => .next ((s.updTile k (fun t => { t.endWait s.time with hfqBad := true })).refreshFull t.part)
    | some slot =>
      let r := (Sparse.get s.queues t.part).ring slot
      if !s.up.hostLink then .next s
      else if (r.2.2.1 - r.2.2.2).toNat < 2 ^ r.2.1 then .next (s.appendFault k addr slot tenant)
      else .next (s.ringFull k addr slot tenant)
  | _ => .next s

/-! The driver's answers (R89). -/

/-- The copy id that a record of an engine or the watchdog names (R81). -/
def FaultRec.copyId (r : FaultRec) : BitVec 16 := if r.src = 5 then r.aux.setWidth 16 else r.aux.extractLsb' 32 16

/-- What NEXT does before the eret. -/
def State.answerNext (s : State) (k : Nat) (r : FaultRec) : State :=
  let q := r.slot.toNat
  match r.src.toNat with
  | 0 | 4 => s.updProcAt k q (fun p => if p.st = .parked then { p with pc := p.pc + 4 } else p)
  | 2 | 5 =>
    match (s.tile k).entryOf q r.copyId with
    | some e => ((s.finishSlot k q).updTile k (fun t => t.abortCopy e s.time)).settleAt k
    | none => s
  | 3 => ((s.finishSlot k q).updProcAt k q (fun p => p.updPump r.obj.toNat (fun u => { u with pend := [] }))).settleAt k
  | _ => s

/-- An operation of the monitor, or of a driver's answer that it applies, takes its effect. -/
def State.monOp (s : State) (k : Nat) (op : MonOp) : State :=
  match op with
  | .issue _ => s
  | .eret q => s.updTile k (fun t => t.eretIssued (BitVec.ofNat 3 q) s.time)
  | .resume q => s.updTile k (fun t => t.eret (BitVec.ofNat 3 q) s.time)
  | .slotwr off v => s.updTile k (fun t => (t.slotwr off v).1)
  | .slotctl q act => s.slotctl k q act
  | .map page v => s.mapPage k page v
  | .next r => s.answerNext k r
  | .kill q => s.kill k q
  | .word _ _ | .peer => s
  | .store a l tag =>
    let t := s.writeBytes k a l
    if tag then t.updTile k (fun v => { v with im := { v.im with tags := Sparse.set v.im.tags (a / 16) true } }) else t

/-- An operation logged and applied. -/
def State.doOp (s : State) (k : Nat) (op : MonOp) : State := (s.logOp k op).monOp k op

/-- The answers of one slot are acted on once none is outstanding: a kill if any says so, else every NEXT and one
eret. -/
def State.actSlot (s : State) (k q : Nat) : State :=
  let t := s.tile k
  let mine := t.answers.filter (fun a => decide (a.2.slot.toNat = q))
  if mine.isEmpty || t.forwarded.any (fun f => decide (f.2.slot.toNat = q)) then s
  else
    let u := s.updTile k (fun t => { t with answers := t.answers.filter (fun a => decide (a.2.slot.toNat ≠ q)) })
    if mine.any (fun a => decide (a.1 = 2)) then u.doOp k (.kill q)
    else
      ((mine.filter (fun a => decide (a.1 = 1))).foldl (fun v a => v.doOp k (.next a.2)) u).doOp k (.resume q)

/-- The answers of a resident vtile are acted on; those of an absent one when it is next resident (R101). -/
def State.actAnswers (s : State) (k : Nat) : State :=
  if s.active k && !(s.tile k).replay.isSome then (List.range 8).foldl (fun t q => t.actSlot k q) s else s

/-- An answer written to fans of a partition for a record of a tenant's vtile: ignored when it matches no record that
awaits one (R308). -/
def State.answer (s : State) (q tenant : Nat) (vtile seq : BitVec 16) (ans : BitVec 2) : State :=
  let k := vtKey q tenant vtile.toNat
  match (s.tile k).forwarded.find? (fun f => decide (f.1 = seq)) with
  | none => s
  | some f =>
    (s.updTile k (fun t => { t with
      forwarded := t.forwarded.erase f
      answers := t.answers ++ [(ans, f.2)] })).actAnswers k

/-- A word written to fans; through a virtual function its tenant field is ignored (R303, R308). A word with ans 3, which R308
does not list, is ignored: the model's choice (log entry 123). -/
def State.writeFans (s : State) (q : Nat) (tenant : Option Nat) (v : Word) : State :=
  let ans : BitVec 2 := v.extractLsb' 36 2
  if ans = 3 then s
  else s.answer q (tenant.getD (v.extractLsb' 32 4 : BitVec 4).toNat) (v.setWidth 16) (v.extractLsb' 16 16) ans

/-- The answer whose fields are the operands of an event: a write of fans, which needs the host link (R302, R303). -/
def State.answerArg (s : State) (ans : BitVec 2) : State :=
  if s.up.reset || !s.up.hostLink then s else s.answer s.arg.q s.arg.t.toNat s.arg.vt s.arg.seq ans

/-- FANS_RESUME. -/
def execFansResume (s : State) : Out := .next (s.answerArg 0)
/-- FANS_NEXT. -/
def execFansNext (s : State) : Out := .next (s.answerArg 1)
/-- FANS_KILL. -/
def execFansKill (s : State) : Out := .next (s.answerArg 2)

end Sys2Proof.Machine
end

