-- ==== Sys2Proof/Machine/Deadbolt.lean ====
section
/-! DEFINITION. The deadbolt: probes along wait edges, their second wave, and reports (R57 to R60). -/

namespace Sys2Proof.Machine

/-- A vtile that the deadbolt takes as not blocked: under a whole-tile freeze, absent, in replay or lost (R23, R103). -/
def State.still (s : State) (k : Nat) : Bool :=
  let t := s.tile k
  !s.active k || t.freeze.isSome || t.replay.isSome || t.lost

/-- A channel on which nothing is outstanding: no message or data in flight or unacknowledged, no claim open (R58). -/
def State.chanQuiet (s : State) (k e : Nat) : Bool :=
  let x := s.endAt k e
  !x.xp && !x.claiming && !x.tent && x.inbuf.isNone && decide (x.st ≠ .transferring)
    && !(s.msgs.any (onChannel { vt := k, idx := e } (s.peerOf k e)))

/-- The owner of the peer of an end, as a process. -/
def State.peerOwner (s : State) (k e : Nat) : Nat × Nat :=
  let p := s.peerOf k e
  (p.vt, s.ownerOf p.vt p.idx)

/-- A message of a latch is in flight. -/
def State.latchBusy (s : State) (k e : Nat) : Bool :=
  s.msgs.any (fun m => decide (m.dst.vt / 65536 = k / 65536) && decide (m.dst.idx = latIdx e))

/-- The member slots of a latch, as processes. -/
def State.latchMembers (s : State) (k e : Nat) : List (Nat × Nat) :=
  (Sparse.get (s.netOf k).latches e).members.flatMap (fun m =>
    let j := k / 65536 * 65536 + m.1
    (slotsOf m.2).filterMap (fun q => if (s.procAt j q.toNat).member e then some (j, q.toNat) else none))

/-- The parties that a latwait waits for: the members that have not arrived, or for a target beyond the next phase every
member; a latch whose home is lost has none (R58, R59). -/
def State.latchEdges (s : State) (k e : Nat) (target : BitVec 16) : List (Nat × Nat) :=
  let r := (s.tile k).latch e
  if r.lost then []
  else if 0 < (target - r.lp - 1).toInt then s.latchMembers k e
  else (s.latchMembers k e).filter (fun p => !((s.tile p.1).latch e).arrived p.2)

/-- The wait edges of a process, or none when it makes a probe live (R58). -/
def State.edges (s : State) (k q : Nat) : Option (List (Nat × Nat)) :=
  let p := s.procAt k q
  if p.st ≠ .blocked || s.still k || p.wait.timed then none
  else
    match p.wait.kind with
    | .channel => if s.chanQuiet k p.wait.endIdx then some [s.peerOwner k p.wait.endIdx] else none
    | .select =>
      let g := (s.tile k).usable q
      if p.wait.asking.isNone && g.all (s.chanQuiet k) then some (g.map (s.peerOwner k)) else none
    | .latwait =>
      match instrOf p.wait.word with
      | .latwait _ e =>
        if s.latchBusy k e.toNat then none else some (s.latchEdges k e.toNat (p.wait.target.setWidth 16))
      | _ => none
    | _ => none

/-- The blocked time at which a process starts a probe (R57). -/
def Proc.probeTime (p : Proc) : Nat := max 1024 p.dlthr.toNat

/-- A process whose blocked-time counter has reached thr starts a probe. -/
def State.probeStart (s : State) (k q : Nat) : State :=
  let p := s.procAt k q
  if p.st = .blocked && p.dlthr ≠ 0 && p.probe.isNone && decide (p.probeTime ≤ p.btime.toNat) && !s.still k then
    s.updProcAt k q (fun p => { p with probe := some { visit := [(k, q)] } })
  else s

/-- DEADBOLT_PROBE_START. -/
def execDeadboltProbeStart (s : State) : Out := .next (s.probeStart s.arg.k s.arg.q)

/-- A probe that ends without a report restarts the counter. -/
def State.probeEnds (s : State) (k q : Nat) : State :=
  s.updProcAt k q (fun p => { p with probe := none, btime := 0 })

/-- The generation with which a process was found. -/
def Probe.genOf (b : Probe) (k q : Nat) : Option (BitVec 32) :=
  (b.found.find? (fun f => decide (f.1 = k) && decide (f.2.1 = q))).map (fun f => f.2.2)

/-- A process joins the found ones, and those along its edges are to be visited. -/
def Probe.add (b : Probe) (k q : Nat) (gen : BitVec 32) (edges : List (Nat × Nat)) : Probe :=
  let found := if (b.genOf k q).isSome then b.found else b.found ++ [(k, q, gen)]
  let rest := b.visit.drop 1
  let new := edges.eraseDups.filter (fun e =>
    !(found.any (fun f => decide (f.1 = e.1) && decide (f.2.1 = e.2))) && !rest.contains e)
  { b with found := found, visit := rest ++ new }

/-- The state with the probe of a process replaced. -/
def State.setProbe (s : State) (k q : Nat) (b : Probe) : State :=
  s.updProcAt k q (fun p => { p with probe := some b })

/-- One visit of a probe: in the first wave it finds and follows; in the second it compares generations (R59). -/
def State.probeVisit (s : State) (k q : Nat) (b : Probe) : State :=
  match b.visit with
  | [] => if b.second then s else s.setProbe k q { b with second := true, visit := b.found.map (fun f => (f.1, f.2.1)) }
  | (j, r) :: rest =>
    match s.edges j r with
    | none => s.probeEnds k q
    | some es =>
      if b.second then
        if b.genOf j r = some (s.procAt j r).gen then s.setProbe k q { b with visit := rest } else s.probeEnds k q
      else s.setProbe k q (b.add j r (s.procAt j r).gen es)

/-- DEADBOLT_PROBE_MESSAGE: a probe makes its next visit. -/
def execDeadboltProbeMessage (s : State) : Out :=
  match (s.procAt s.arg.k s.arg.q).probe with
  | some b => .next (s.probeVisit s.arg.k s.arg.q b)
  | none => .next s

/-- The match that a reported process waits in, granted and not yet streaming, ends at its side: the model's choice, for
R60 speaks of offers only (log entry 35). -/
def State.endMatch (s : State) (k q : Nat) : State :=
  let w := (s.procAt k q).wait
  if w.kind = .channel && decide ((s.endAt k w.endIdx).st = .claimed) then
    s.updEnd k w.endIdx (fun x => { x.calm with st := x.rest })
  else s

/-- A reported process acts on its T bit; its offers are withdrawn (R60). -/
def State.deadlocked (s : State) (k q : Nat) (gen : BitVec 32) : State :=
  let p := s.procAt k q
  let t := (s.withdrawAll k q).endMatch k q
  if p.dlT then
    (t.updProcAt k q (fun p => { p with wait := {} })).takeFault k q 4
      { code := codeDeadlock, aux := gen.setWidth 64 }
  else if p.wait.kind = .latwait then t.completeAt k q
  else t.chanDone k q stDeadlock none 0 [] id

/-- A report reaches one process: ignored when its generation has changed. It enters the log of its tile. -/
def State.reportTo (s : State) (k q : Nat) (gen : BitVec 32) : State :=
  let p := s.procAt k q
  if p.st = .blocked && p.gen = gen then
    (s.log k { slot := BitVec.ofNat 3 q, event := some (.deadboltReport, { bad := [(k, q)] }) }).deadlocked k q gen
  else s

/-- DEADBOLT_REPORT: the processes found by both waves are reported. A replay presents the ones of its tile. -/
def execDeadboltReport (s : State) : Out :=
  if s.presenting then .next (s.arg.bad.foldl (fun t e => t.deadlocked e.1 e.2 (t.procAt e.1 e.2).gen) s)
  else
    match (s.procAt s.arg.k s.arg.q).probe with
    | some b =>
      if b.second && b.visit.isEmpty then
        .next (b.found.foldl (fun t f => t.reportTo f.1 f.2.1 f.2.2)
          (s.updProcAt s.arg.k s.arg.q (fun p => { p with probe := none })))
      else .next s
    | none => .next s

end Sys2Proof.Machine
end

