-- ==== Sys2Proof/Machine/Network.lean ====
section
/-! DEFINITION. What the start of a network, its stop, the loss of another vtile and the reset of a function do to one
vtile (R17, R18, R306, R310, R340). -/

namespace Sys2Proof.Machine

/-! The start (R17, R18). -/

/-- The latches of which a slot of a vtile is a member by the network's latch table. -/
def Network.memberships (w : Network) (vtile slot : Nat) : BitVec 256 :=
  w.latches.foldl (fun m e =>
    if e.2.members.any (fun g => decide (g.1 = vtile) && g.2.getLsbD slot) then m ||| (1#256 <<< e.1) else m) 0

/-- One initial process becomes READY, with its latch memberships. -/
def State.placeInitial (s : State) (k : Nat) (p : Placement) : State :=
  let e : PoolEntry := {
    entry := p.entry, arg := p.arg, prio := p.prio, num := BitVec.ofNat 64 (k % 65536 * 8 + p.slot) }
  (s.place k p.slot e).updProcAt k p.slot (fun c => { c with memb := (s.netOf k).memberships (k % 65536) p.slot })

/-- The initial processes of a vtile become READY together, and k4 holds the package time at which they do (R62). -/
def State.startVTile (s : State) (k : Nat) : State :=
  let t := (s.log k { event := some (.networkStart, { k := k }) }).updTile k (fun t =>
    t.updIm (fun m => { m with consts := Sparse.set m.consts 4 s.time }))
  ((s.netOf k).places.filter (fun p => decide (p.vtile = k % 65536))).foldl (fun u p => u.placeInitial k p) t

/-! What reaches a vtile from outside its log. -/

/-- An event of a vtile is logged and takes effect; at a vtile in replay it waits for the end of the replay. -/
def State.orLater (s : State) (k : Nat) (i : Instr) (a : EvArgs) (f : State → State) : State :=
  let e : LogEntry := { event := some (i, a) }
  if (s.tile k).replay.isSome && !s.presenting then
    s.updTile k (fun t => { t with replay := t.replay.map (fun l => l ++ [e]) })
  else f (s.log k e)

/-! The stop (R310). -/

/-- The processes of a vtile are killed and its pool is discarded. -/
def State.stopVTile (s : State) (k : Nat) : State := s.orLater k .stop { k := k } (fun t => t.killAll k)

/-! A function-level reset (R306). -/

/-- A cpyx runs through the host port. -/
def Copy.toHost (c : Copy) : Bool := c.isExternal && decide (c.port = 63)

/-- The outstanding cpyx commands of a vtile through port 63 end as cabort ends them (R223). -/
def State.endHostCopies (s : State) (k : Nat) : State :=
  s.orLater k .flrVf { k := k } (fun u => ((u.finishAll k).updTile k (fun t =>
    (List.range 16).foldl (fun t e => if (Sparse.get t.im.copies e).toHost then t.abortCopy e s.time else t) t)).settleAt k)

/-! The loss of a vtile, at another one (R38, R59, R340). -/

/-- An end whose peer vtile is lost goes BROKEN; a place above the ends stands for the record of a latch whose home is
lost. -/
def State.breakAt (s : State) (k e : Nat) : State :=
  s.orLater k .vtileLost { bad := [(k, e)] } (fun t =>
    if 256 ≤ e then t.updLatch k (e - 256) (fun r => { r with lost := true })
    else if (t.endAt k e).st = .unbound then t
    else t.peerGone k e .broken)

end Sys2Proof.Machine
end

