-- ==== Sys2Proof/Machine/Replay.lean ====
section
/-! DEFINITION. Replay: what the input log presents, tick by tick, and its end (R332, R334). -/

namespace Sys2Proof.Machine

/-- An event of the log takes its effect at the vtile that logged it; its operands stand in the state. -/
def State.presentEvent (s : State) (i : Instr) : State :=
  match i with
  | .offerArrives => stateOf (execOfferArrives s) s
  | .claimArrives => stateOf (execClaimArrives s) s
  | .confirmationRequestArrives => stateOf (execConfirmationRequestArrives s) s
  | .grantArrives => stateOf (execGrantArrives s) s
  | .refusalArrives => stateOf (execRefusalArrives s) s
  | .withdrawalArrives => stateOf (execWithdrawalArrives s) s
  | .goArrives => stateOf (execGoArrives s) s
  | .firstFlitArrives => stateOf (execFirstFlitArrives s) s
  | .lastByteWritten => stateOf (execLastByteWritten s) s
  | .acknowledgementArrives => stateOf (execAcknowledgementArrives s) s
  | .closeNoticeArrives => stateOf (execCloseNoticeArrives s) s
  | .latchArrivalMsg => stateOf (execLatchArrivalMsg s) s
  | .latchDropMsg => stateOf (execLatchDropMsg s) s
  | .latchLeaveMsg => stateOf (execLatchLeaveMsg s) s
  | .phaseMulticastApplied => stateOf (execPhaseMulticastApplied s) s
  | .deadlinePasses => stateOf (execDeadlinePasses s) s
  | .deliveryFails => stateOf (execDeliveryFails s) s
  | .deadboltReport => stateOf (execDeadboltReport s) s
  | .translationWalkComplete => stateOf (execTranslationWalkComplete s) s
  | .pageWaiterRelease => stateOf (execPageWaiterRelease s) s
  | .matrixCommandComplete => stateOf (execMatrixCommandComplete s) s
  | .copyElement => stateOf (execCopyElement s) s
  | .cpyxElementAck => stateOf (execCpyxElementAck s) s
  | .cpyxReadDataArrives => stateOf (execCpyxReadDataArrives s) s
  | .cpyxWatchdogExpiry => stateOf (execCpyxWatchdogExpiry s) s
  | .cpyxAbortTimeout => stateOf (execCpyxAbortTimeout s) s
  | .cpyxPauseAckTimeout => stateOf (execCpyxPauseAckTimeout s) s
  | .inputPumpPrefetch => stateOf (execInputPumpPrefetch s) s
  | .outputPumpWrite => stateOf (execOutputPumpWrite s) s
  | .freezeRequestAccepted => stateOf (execFreezeRequestAccepted s) s
  | .tileQuiescent => s.updTile s.arg.k (fun t => { t with tick := 0 })
  | .freezeRelease => (s.updTile s.arg.k (fun t => { t with freeze := none })).thawAll s.arg.k
  | .networkStart => s.startVTile s.arg.k
  | .stop => s.stopVTile s.arg.k
  | .flrVf => s.endHostCopies s.arg.k
  | .inputLogThreshold => s.updTile s.arg.k (fun t => { t with starved := true })
  | .checkpointCommit => s.updTile s.arg.k (fun t => { t with starved := false })
  | .vtileLost => s.arg.bad.foldl (fun t e => t.breakAt e.1 e.2) s
  | _ => s

/-- An entry of the log is presented. -/
def State.present (s : State) (k : Nat) (e : LogEntry) : State :=
  s.presentAs k e (fun t =>
    match e.event, e.mon with
    | some (i, _), _ => t.presentEvent i
    | none, some .peer => { State.peerEvent { t with cur := { vt := k, who := monitorCtx } } with cur := s.cur }
    | none, some op => t.monOp k op
    | none, none => t)

/-- An entry marks the issue of the monitor on a pipe. -/
def LogEntry.isIssue (e : LogEntry) : Bool :=
  match e.mon with
  | some (.issue _) => true
  | _ => false

/-- An entry marks the end of the replay. -/
def LogEntry.isEnd (e : LogEntry) : Bool :=
  match e.event with
  | some (.replayEnd, _) => true
  | _ => false

/-- The pipe that the monitor held at an issue of the log is held in the replay too. -/
def VTile.monitorHolds (t : VTile) (e : LogEntry) : VTile :=
  if e.mon = some (.issue true) then { t with issuedA := some monitorCtx } else { t with issuedB := some monitorCtx }

/-- The entries of the present tick up to the next issue of the monitor are presented in order. -/
def State.presentRun (s : State) (k : Nat) : Nat → State
  | 0 => s
  | n + 1 =>
    match (s.tile k).nextEntry with
    | none => s
    | some e =>
      if e.isIssue || e.isEnd then s
      else State.presentRun ((s.updTile k (fun t => t.dropEntry e)).present k e) k n

/-- A replay presents what its log holds for the present tick. -/
def State.replayNow (s : State) (k : Nat) : State := s.presentRun k (((s.tile k).replay.getD []).length)

/-- The issue of the monitor on a pipe at the present tick: it holds the pipe as it did then, and what it did there is
presented (R31, R332). -/
def State.replayIssue (s : State) (k : Nat) : State :=
  match (s.tile k).nextEntry with
  | some e => if e.isIssue then (s.updTile k (fun t => (t.dropEntry e).monitorHolds e)).replayNow k else s
  | none => s

/-- The replay of a tile has come to its last tick. -/
def VTile.replayOver (t : VTile) : Bool :=
  match t.nextEntry with
  | some e => e.isEnd
  | none => false

/-- The time of a vtile's committed checkpoint. -/
def VTile.ckTime (t : VTile) : Word := (t.ck.map (fun c => c.time)).getD 0

/-- The divergences of a replay are reported (R334, R341). -/
def State.reportDivergences (s : State) (k : Nat) : State :=
  (s.tile k).diverged.foldl (fun u aux => u.report (s.reportOf k 1 (s.tile k).ckTime aux))
    (s.updTile k (fun t => { t with diverged := [] }))

/-- The entries after the mark of a replay's end: what waits for it. -/
def VTile.lateEntries (t : VTile) : List LogEntry := ((t.replay.getD []).dropWhile (fun e => !e.isEnd)).drop 1

/-- An event that waited for the end of a replay takes effect. -/
def State.applyLate (s : State) (e : LogEntry) : State :=
  match e.event with
  | some (i, a) => { State.presentEvent { s with arg := a } i with arg := s.arg }
  | none => s

/-- A tile leaves replay: what was held is applied as at a thaw, deadlines and the rotation of selects included, and live
execution goes on (R46, R48, R334). -/
def State.endReplay (s : State) (k : Nat) : State :=
  let t := ((s.updTile k (fun t => { t with replay := none })).reportDivergences k).catchUp k (List.range 8)
    (fun m => decide (m.dst.vt = k))
  ((s.tile k).lateEntries.foldl State.applyLate t).settleAt k

/-- REPLAY_END. -/
def execReplayEnd (s : State) : Out :=
  if (s.tile s.arg.k).replayOver then .next (s.endReplay s.arg.k) else .next s

end Sys2Proof.Machine
end

