-- ==== Sys2Proof/Machine/Checkpoint.lean ====
section
/-! DEFINITION. Checkpoints, the thresholds of the input log and of the snapshot pool, and rollback (R328 to R334). -/

namespace Sys2Proof.Machine

/-! Starting a checkpoint (R328). -/

/-- A rotation step or retirement move of a tile is in progress. -/
def State.rotating (s : State) (p : Nat) : Bool :=
  s.rel.rotations.any (fun e => match e.2 with
    | some r => decide (r.from_ = p) || decide (r.dest = p)
    | none => false)

/-- A checkpoint of a vtile may start: the tile runs, none is in progress, no hinge step and no rollback is, and the stack of
the partner, where the cistern lies, is there. -/
def State.mayCheckpoint (s : State) (k : Nat) : Bool :=
  let t := s.tile k
  s.active k && !t.lost && !t.failed && t.freeze.isNone && t.replay.isNone && t.staged.isNone && !t.unmerged
    && t.errPending.isNone && !s.rotating t.ptile && !s.stackLost (regionOf t.ptile) (chipletOf (partnerOf t.ptile))

/-- A checkpoint starts; the requests so far are merged into it. -/
def State.startCapture (s : State) (k : Nat) : State :=
  (s.updTile k (fun t => { t with ckPending := false, ckDue := false })).haltTile k .capture

/-- ckint as it acts (R327). -/
def Reliability.interval (r : Reliability) : Nat := min (max r.ckint.toNat 1000000) 10000000

/-- CKINT_EXPIRY: the longest interval has passed, or a checkpoint is due at once. -/
def execCkintExpiry (s : State) : Out :=
  let k := s.arg.k
  let t := s.tile k
  if s.mayCheckpoint k && (t.ckDue || t.ck.isNone || s.rel.interval ≤ s.since t.ckTime) then .next (s.startCapture k)
  else .next s

/-- CKMIN_EXPIRY: a chkpt request is pending and the shortest interval has passed (R243). -/
def execCkminExpiry (s : State) : Out :=
  let k := s.arg.k
  let t := s.tile k
  if s.mayCheckpoint k && t.ckPending && s.rel.ckmin.toNat ≤ s.since t.ckTime then .next (s.startCapture k)
  else .next s

/-! Capture, streaming and commit (R329, R330). -/

/-- What a checkpoint keeps of a vtile, in the cistern of its tile's partner. -/
def VTile.checkpoint (t : VTile) (time : Word) : Ckpt :=
  { im := t.im, pt := t.pt, pages := t.pages, releases := t.releases, starved := t.starved, time := time
    home := partnerOf t.ptile }

/-- The bytes of one 4 KiB page of the tile store. -/
def storePage (m : Memory) (n : Nat) : Memory := m.filter (fun c => decide (c.1 / 4096 = n))

/-- The pages of the tile store that differ from the last checkpoint. -/
def VTile.dirtyPages (t : VTile) : List Nat :=
  (List.range 512).filter (fun n =>
    decide (storePage t.im.store n ≠ storePage ((t.ck.map (fun c => c.im.store)).getD []) n))

/-- The capture of a quiescent tile: the image is taken, dirty pages are to be streamed, the tick count restarts, and
the tile is released (R329, R332). -/
def State.capture (s : State) (k : Nat) : State :=
  ((s.log k { event := some (.tileQuiescent, { k := k }) }).updTile k (fun t =>
    { t with
      staged := some (t.checkpoint s.time)
      stagedSnaps := []
      marked := t.dirtyPages
      logMark := t.log.length
      tick := 0 })).release k

/-- CHECKPOINT_PAGE_STREAMED: a marked page reaches staging. -/
def execCheckpointPageStreamed (s : State) : Out :=
  .next (s.updTile s.arg.k (fun t => t.streamed s.arg.j))

/-- The staged checkpoint is the committed one; log and snapshots since it stand (R329, R330). -/
def VTile.commit (t : VTile) : VTile :=
  let l := t.log.drop t.logMark
  { t with
    ck := t.staged
    staged := none
    unmerged := true
    snaps := t.stagedSnaps
    stagedSnaps := []
    log := l
    logMark := 0
    logBytes := l.foldl (fun n e => n + e.size) 0
    low := false
    starved := false }

/-- CHECKPOINT_COMMIT: every page is in staging and the commit word is written; what the lack of room held back goes on, and
the log says when (R333). -/
def execCheckpointCommit (s : State) : Out :=
  let k := s.arg.k
  let t := s.tile k
  if t.staged.isSome && t.marked.isEmpty then
    let u := s.updTile k VTile.commit
    .next (if t.needsCommit then
      (u.log k { event := some (.checkpointCommit, { k := k }) }).deliverAll (fun m => decide (m.dst.vt = k)) else u)
  else .next s

/-- STAGING_MERGE_COMPLETE (R330). -/
def execStagingMergeComplete (s : State) : Out := .next (s.updTile s.arg.k (fun t => { t with unmerged := false }))

/-! Thresholds (R333). -/

/-- Room in the log or the pool that falls below its threshold requests a checkpoint, which during one in progress is the next
one (R328); with hardly any, claims, data and well writes wait until a commit, and the log says since when. -/
def State.roomTick (s : State) (k : Nat) : State :=
  let t := s.tile k
  if t.replay.isSome then s
  else
    let u := s.updTile k (fun t => { t with ckDue := t.ckDue || (t.lowRoom && !t.low), low := t.lowRoom })
    if t.noRoom && !t.starved then
      (u.log k { event := some (.inputLogThreshold, { k := k }) }).updTile k (fun t => { t with starved := true })
    else u

/-- INPUT_LOG_THRESHOLD: the room of a tile is looked at, as it is at the end of each tc; with c = 1 the fill of line j of the
well cache enters the log first, when the tile has such a page mapped (R332 type 7). -/
def execInputLogThreshold (s : State) : Out :=
  .next ((if s.arg.c = 1 && entryM ((s.tile s.arg.k).entry (s.arg.j / 1024)) then s.log s.arg.k { ty := 7, obj := s.arg.j, bytes := payload [s.arg.j, 0] } else s).roomTick s.arg.k)

/-! Rollback (R334). -/

/-- The image of a checkpoint: the monitor's context, of which the context image holds nothing, stands as it is, and so do the
records of the fault queue, which a replay does not record again (log entry 31). -/
def VTile.restoredIm (t : VTile) (im : Image) : Image :=
  { im with
    procs := Sparse.set im.procs monitorCtx (t.proc monitorCtx)
    store := Memory.write im.store monLo (Memory.read t.im.store monLo 512) }

/-- The tick at which a replay is to end: that of the first rollback, or the present one. -/
def VTile.endTick (t : VTile) : Word :=
  match (t.replay.getD []).find? LogEntry.isEnd with
  | some e => e.tick
  | none => t.tick

/-- The vtile put back to its committed checkpoint, about to replay its log from tick 0; nothing is left of a checkpoint
in progress, of a freeze, or of the translation cache. -/
def VTile.rolledBack (t : VTile) (c : Ckpt) : VTile :=
  { t with
    im := t.restoredIm c.im
    pt := c.pt
    tlb := []
    walks := []
    discard := []
    pages := c.pages
    releases := c.releases
    starved := c.starved
    replay := some (t.log ++ [{ tick := t.endTick, event := some (.replayEnd, {}) }] ++ t.lateEntries)
    tick := 0
    staged := none
    stagedSnaps := []
    snaps := []
    marked := []
    logMark := 0
    freeze := none
    errPending := none
    failed := false
    ckPending := t.ckPending || t.staged.isSome }

/-- A snapshot restored to its page. -/
def restorePage (hbm : Memory) (e : Nat × Memory) : Memory :=
  e.2.foldl (fun m c => Sparse.set m c.1 c.2) (Memory.clear hbm (e.1 * 65536) 65536)

/-- The snapshots of a vtile since its committed checkpoint, the oldest contents of each page. -/
def VTile.oldPages (t : VTile) : List (Nat × Memory) :=
  t.snaps ++ t.stagedSnaps.filter (fun e => !(t.snaps.any (fun f => f.1 == e.1)))

/-- A well page has a snapshot: that of the frame it is mapped to. -/
def State.snapshotted (s : State) (k page : Nat) : Bool :=
  (s.tile k).oldPages.any (fun e => decide (e.1 = s.frameNum k (Sparse.get (s.tile k).pt page)))

/-- A vtile rolls back to its committed checkpoint and replays (R334). -/
def State.rollback (s : State) (k : Nat) : State :=
  let t := s.tile k
  match t.ck with
  | none => s
  | some c =>
    State.replayNow { s.updTile k (fun t => t.rolledBack c) with hbm := t.oldPages.foldl restorePage s.hbm } k

/-- The record of a MACHINE error: structure code in aux; no process parks for it (R81, R90). -/
def State.machineRecord (s : State) (k q : Nat) (code : BitVec 8) : State :=
  s.updTile k (fun t =>
    { ({ t with replay := none }.queueRec
        { code := codeMachine, slot := BitVec.ofNat 3 q, src := 6, pc := (t.proc q).pc.setWidth 32, time := s.time
          aux := code.setWidth 64 } s.time) with replay := t.replay })

/-- A step abandoned: the hinge tries it again at the next rotint, with the same tile (R336); `key` names its chiplet and
`i` the place of the tile on the chiplet's path. -/
def Reliability.abandon (l : Reliability) (key i : Nat) (retire : Bool) : Reliability :=
  { l with
    rotations := Sparse.set l.rotations key none
    next := if retire then l.next else Sparse.set l.next key i
    retry := Sparse.set l.retry key (retire || Sparse.get l.retry key) }

/-- The steps that meet a condition are abandoned. -/
def State.abandonSteps (s : State) (f : Rotation → Bool) : State :=
  { s with rel := s.rel.rotations.foldl (fun l e => match e.2 with
      | some x => if f x then l.abandon e.1 (pathIndex x.from_) x.retire else l
      | none => l) s.rel }

/-- A rotation step of a tile that is still warming its spare is abandoned (R336). -/
def State.abandonWarm (s : State) (p : Nat) : State :=
  s.abandonSteps (fun x => decide (x.from_ = p) && decide (x.stage = .warm))

/-- A rollback whose tile is no longer under a freeze. -/
def State.errTick (s : State) (k : Nat) : State :=
  if (s.tile k).freeze.isNone then (s.abandonWarm (s.tile k).ptile).rollback k else s

/-- An error that a rollback meets: in one of the structures 1 to 8 of a tile, or with 9 in a well page that has a snapshot
(R339). -/
def State.rollsBack (s : State) (k c page : Nat) : Bool :=
  (decide (1 ≤ c) && decide (c ≤ 8)) || (decide (c = 9) && s.snapshotted k page)

/-- ROLLBACK: an uncorrectable error in the structure c of a tile, with a MACHINE record, or with c = 9 in its well page j; the
tile counts it (R334, R356). While the tile is under a freeze, which cannot be aborted, it waits (R100). -/
def execRollback (s : State) : Out :=
  let k := s.arg.k
  let c := s.arg.c
  let t := s.tile k
  if !s.active k || t.lost || t.failed || t.ck.isNone || !s.rollsBack k c s.arg.j then .next s
  else
    let u := if c ≤ 8 then s.machineRecord k s.arg.q (BitVec.ofNat 8 c) else s
    .next (((u.updPTile t.ptile (fun p => { p with uce := satInc p.uce })).updTile k (fun t =>
      { t with errPending := some (BitVec.ofNat 8 c) })).errTick k)

end Sys2Proof.Machine
end

