-- ==== Sys2Proof/Machine/Health.lean ====
section
/-! DEFINITION. Places of tiles on the paths, the link table's digest, the panel health state, the identity summary, tile
counters and the retirement log (R10 to R13, R299, R355 to R361). -/

namespace Sys2Proof.Machine

/-! Paths (R11, R12). -/

/-- The region-path index of each region, by record index y × 8 + x (R11). -/
def regionPath : List Nat :=
  [0, 1, 22, 23, 24, 25, 46, 47] ++ [3, 2, 21, 20, 27, 26, 45, 44] ++ [4, 5, 18, 19, 28, 29, 42, 43]
    ++ [7, 6, 17, 16, 31, 30, 41, 40] ++ [8, 11, 12, 15, 32, 35, 36, 39] ++ [9, 10, 13, 14, 33, 34, 37, 38]

/-- The region record index at a place of the region path. -/
def regionAt (i : Nat) : Nat := regionPath.idxOf i

/-- The tile at a place of the path of a chiplet (0 for A, 1 for B) of a region. -/
def tileOfPath (region chiplet i : Nat) : Nat :=
  let pos := chipletPath.idxOf i
  tileAt region (8 * chiplet + pos % 8) (pos / 8)

/-- The tiles of a chiplet in path order. -/
def chipletTiles (region chiplet : Nat) : List Nat := (List.range 64).map (tileOfPath region chiplet)

/-- The tiles of a region: chiplet A's in path order, then B's. -/
def regionTiles (region : Nat) : List Nat := chipletTiles region 0 ++ chipletTiles region 1

/-- A physical tile. -/
def State.ptile (s : State) (p : Nat) : PTile := Sparse.get s.ptiles p

/-- The tiles of a chiplet with a role, in path order. -/
def State.withRole (s : State) (region chiplet : Nat) (r : Role) : List Nat :=
  (chipletTiles region chiplet).filter (fun p => decide ((s.ptile p).role = r))

/-! The link table (R299, R300). -/

/-- A region. -/
def State.region (s : State) (r : Nat) : Region := Sparse.get s.regions r

/-- The state with one region changed. -/
def State.updRegion (s : State) (r : Nat) (f : Region → Region) : State := { s with regions := Sparse.upd s.regions r f }

/-- A region is under an emergency. -/
def Region.emergency (r : Region) : Bool := r.emPower || r.emSupply || r.emThermal || r.emFlow

/-- The state field of a region's record: off, up, emergency freeze or lost. -/
def Region.code (r : Region) : Nat :=
  match r.power with
  | .lost => 3
  | .on => if r.emergency then 2 else 1
  | _ => 0

/-- The tiles of a chiplet with a role, once its region's tiles are divided. -/
def State.roleCount (s : State) (r c : Nat) (k : Role) : Nat :=
  if (s.region r).divided then (s.withRole r c k).length else 0

/-- The vtiles that a region offers. -/
def State.offered (s : State) (r : Nat) : Nat := s.roleCount r 0 .exposed + s.roleCount r 1 .exposed

/-- The record of a region: vtiles offered, spares of each chiplet, and state. -/
def State.regionRecord (s : State) (r : Nat) : Nat :=
  s.offered r + s.roleCount r 0 .spare * 256 + s.roleCount r 1 .spare * 4096 + (s.region r).code * 65536

/-- The 32 B of a link entry. -/
def Link.bytes (l : Link) : List Byte :=
  toBytes 32 (l.kind.toNat + l.cond.toNat * 16 + l.near.toNat * 2 ^ 64 + l.far.toNat * 2 ^ 80 + l.rate.toNat * 2 ^ 128
    + l.lat.toNat * 2 ^ 160 + l.peer.toNat * 2 ^ 192)

/-- A link missing. -/
def Link.missing (l : Link) : Link := { l with cond := 15, rate := 0 }

/-- The regions at the ends of a link. -/
def Link.regions (l : Link) : List Nat :=
  match l.kind.toNat with
  | 0 => [regionOf l.near.toNat]
  | 1 => [l.near.toNat, l.far.toNat]
  | 2 => [l.near.toNat]
  | _ => [0]

/-- A link entry rewritten. -/
def State.setLink (s : State) (i : Nat) (l : Link) : State := { s with links := Sparse.set s.links i l }

/-- The digest of the link table: over every region record and link entry. -/
def State.linkDigest (s : State) : List Byte :=
  sha256 ((List.range 48).flatMap (fun r => toBytes 16 (s.regionRecord r))
    ++ (List.range linkCount).flatMap (fun i => (Sparse.get s.links i).bytes))

/-! Health (R355, R358). -/

/-- The spares of every chiplet of the panel. -/
def State.spareCounts (s : State) : List Nat :=
  (List.range 48).flatMap (fun r => [s.roleCount r 0 .spare, s.roleCount r 1 .spare])

/-- The panel health state: the highest whose condition holds. -/
def State.healthState (s : State) : BitVec 8 :=
  let rs := (List.range 48).map s.region
  if s.up.phase = 15 || rs.all (fun r => decide (r.power ≠ .on)) then 3
  else if rs.any (fun r => decide (r.power = .lost) || r.stack0Lost || r.stack1Lost)
      || s.spareCounts.contains 0 then 2
  else if s.spareCounts.contains 1
      || s.links.any (fun l => decide (l.2.cond ≠ 0)) || rs.any Region.emergency then 1
  else 0

/-- The bytes of "PLV-W1". -/
def partName : List Byte := [0x50, 0x4C, 0x56, 0x2D, 0x57, 0x31]

/-- The identity summary (R355). -/
def State.summary (s : State) : List Byte :=
  let l := toBytes 4 (s.health.eeseq.toNat + 1) ++ toBytes 4 s.health.logCount ++ toBytes 8 Config.serial.toNat
    ++ partName ++ List.replicate 10 0 ++ s.linkDigest ++ toBytes 8 s.time.toNat ++ toBytes 1 s.health.hstate.toNat
    ++ List.replicate 51 0
  l ++ toBytes 4 (crc32c l).toNat

/-- The state with the health records changed. -/
def State.updHealth (s : State) (f : Health → Health) : State := { s with health := f s.health }

/-- The controller rewrites the summary, the two copies in turn. -/
def State.rewriteSummary (s : State) : State :=
  let l := s.summary
  s.updHealth (fun h =>
    { h with
      eeseq := h.eeseq + 1
      eeprom0 := if h.eeseq.toNat % 2 = 0 then l else h.eeprom0
      eeprom1 := if h.eeseq.toNat % 2 = 0 then h.eeprom1 else l })

/-- The health state is published when it has changed: summary, vector 2, in-band interrupt, in this order (R358). -/
def State.publishHealth (s : State) : State :=
  let h := s.healthState
  if h = s.health.hstate then s
  else
    (((s.updHealth (fun x => { x with hstate := h })).rewriteSummary).raiseVector manage).updHealth
      (fun x => { x with inband := x.inband + 1 })

/-- What a change of regions, roles or links does beside itself: the table's generation counts every record or entry
changed, and the health state is published (R299, R358). -/
def State.noted (s old : State) : State :=
  let n := ((List.range 48).filter (fun r => decide (s.regionRecord r ≠ old.regionRecord r))).length
  let m := ((s.links.map (fun l => l.1)).filter (fun i => decide (Sparse.get s.links i ≠ Sparse.get old.links i))).length
  ({ s with linkGen := s.linkGen + BitVec.ofNat 32 (n + m) } : State).publishHealth

/-! Tile counters (R356, R357). -/

/-- The NV fields of a tile's counters, on a tile that is otherwise as at bring-up. -/
def PTile.nv (p : PTile) : PTile :=
  { pwr := p.pwr, margin := p.margin, ce := p.ce, hbmce := p.hbmce, uce := p.uce, scrp := p.scrp, scrf := p.scrf, rot := p.rot }

/-- A saturating sum of counters. -/
def satAdd (a b : Word) : Word := if a.toNat + b.toNat < 2 ^ 64 then a + b else BitVec.allOnes 64

/-- A region is powered, or its ramp is under way. -/
def Region.live (x : Region) : Bool := decide (x.power ≠ .off) && decide (x.power ≠ .lost)

/-- The band of a temperature in tenths of a degree. -/
def tempBand (t : Int) : Nat := if t < 550 then 0 else if t < 750 then 1 else if t < 950 then 2 else 3

/-- The bin in which a tile counts a tc: 4 x vband + tband. -/
def powerBin (p n : Nat) : Nat := (if Config.milliVolt p n < 700 then 0 else 4) + tempBand (Config.deciCelsius p n)

/-- The tc that a tile has been powered in a bin since its region's power was last switched on. -/
def State.poweredSince (s : State) (p b : Nat) : Nat :=
  let x := s.region (regionOf p)
  if x.live then ((List.range (s.count - x.pwrFrom)).filter (fun n => decide (powerBin p (x.pwrFrom + n) = b))).length else 0

/-- The counters of powered tc of a tile as they stand: those of earlier times, and the tc since, each in the bin of its
voltage and temperature. -/
def State.powered (s : State) (p : Nat) : List Word :=
  (List.range 8).map (fun b => satAdd ((s.ptile p).pwr.getD b 0) (BitVec.ofNat 64 (min (s.poweredSince p b) (2 ^ 64 - 1))))

/-- A region's power is about to be switched off: its tiles keep their counts. -/
def State.bankPower (s : State) (r : Nat) : State :=
  if (s.region r).live then
    (regionTiles r).foldl (fun t p => t.updPTile p (fun x => { x with pwr := s.powered p })) s
  else s

/-- The NV fields of every tile's counters are saved. -/
def State.saveCounters (s : State) : State :=
  s.updHealth (fun h =>
    { h with
      nv := (List.range 6144).map (fun p => (p, { (s.ptile p).nv with pwr := s.powered p }))
      saveTime := s.time })

/-- NV_COUNTER_SAVE: every 60 s the NV fields are saved. -/
def execNvCounterSave (s : State) : Out :=
  if 60000000000 ≤ s.since s.health.saveTime then
    .next s.saveCounters
  else .next s

/-! The retirement log (R359 to R361). -/

/-- Bytes 0x00 to 0x7B of an entry with its sequence number. -/
def Retirement.bytes (r : Retirement) (seq : Nat) : List Byte :=
  let l := toBytes 8 seq ++ toBytes 8 r.time.toNat ++ toBytes 2 r.ptile.toNat ++ toBytes 1 r.reason.toNat
    ++ toBytes 1 r.detail.toNat ++ toBytes 4 r.span.toNat ++ toBytes 8 r.t0.toNat ++ toBytes 8 r.t1.toNat
    ++ toBytes 1 r.part.toNat ++ toBytes 1 r.tenant.toNat ++ toBytes 2 r.vtile.toNat ++ toBytes 2 r.spare.toNat
    ++ List.replicate 74 0
  l ++ toBytes 4 (crc32c l).toNat

/-- A retirement waits to be entered in its turn (R360). -/
def State.enterLog (s : State) (r : Retirement) : State := s.updHealth (fun h => { h with pending := h.pending ++ [r] })

/-- A retirement waits to be entered in its turn, and is reported as type 8 with its reason in aux (R341, R360). -/
def State.logRetirement (s : State) (r : Retirement) : State :=
  (s.enterLog r).report
    { ty := 8, tenant := r.tenant, vtile := r.vtile, part := r.part, ptile := r.ptile, t0 := r.time, t1 := r.time,
      aux := r.reason.setWidth 64 }

/-- The bytes of an entry that are programmed before its commit byte. -/
def entryBytes : Nat := 0x7C

/-- RETIREMENT_LOG_COMMIT: the oldest entry that waits is programmed, verified and committed, and the summary rewritten;
with c = 1 its programming has come to byte j. An entry whose vtile has still to move holds back those behind it. -/
def execRetirementLogCommit (s : State) : Out :=
  match s.health.pending with
  | [] => .next s
  | r :: l =>
    if r.waits then .next s
    else if s.arg.c = 1 then
      .next (s.updHealth (fun h => { h with programmed := max h.programmed (min s.arg.j entryBytes) }))
    else
      .next (s.updHealth (fun h =>
        { h with
          pending := l
          programmed := 0
          log := Sparse.set h.log h.logCount (some r)
          logCount := h.logCount + 1 })).rewriteSummary

/-- What a slot reads as with the first n bytes of an entry programmed: the rest is erased (R359). -/
def slotProgrammed (r : Retirement) (slot n : Nat) : List Byte :=
  (r.bytes slot).take n ++ List.replicate (128 - min n (r.bytes slot).length) 0xFF

/-- What the slot behind the committed entries reads as: programmed in part, torn, or erased (R359 to R361). -/
def State.openSlot (s : State) : List Byte :=
  match s.health.pending with
  | r :: _ => if s.health.programmed = 0 then s.health.torn else slotProgrammed r s.health.logCount s.health.programmed
  | [] => s.health.torn

/-! Retirement (R335, R339). -/

/-- A margin has fallen by more than mgnlim against its baseline (R338). -/
def State.marginFails (s : State) (m : BitVec 32) : Bool := decide ((s.rel.mgnlim.toNat : Int) < m.toInt)

/-- The state with the reliability registers changed. -/
def State.updRel (s : State) (f : Reliability → Reliability) : State := { s with rel := f s.rel }

/-- A tile is to be retired, or is. -/
def State.retiredSoon (s : State) (p : Nat) : Bool :=
  decide ((s.ptile p).role = .retired) || decide ((s.ptile p).role = .lost)
    || s.rel.retiring.any (fun r => decide (r.ptile.toNat = p))

/-- The retirement of a tile with the vtile that it holds, the active one first. -/
def State.withVTile (s : State) (r : Retirement) (p : Nat) : Retirement :=
  let l := s.vts.filter (fun e => decide (e.2.ptile = p))
  match (l.find? (fun e => s.active e.1)).orElse (fun _ => l.head?) with
  | some e => { r with
      part := BitVec.ofNat 8 e.2.part, tenant := BitVec.ofNat 8 e.2.tenant, vtile := BitVec.ofNat 16 e.2.num }
  | none => r

/-- A scrub under way has a tile done: it was scrubbed, or as it is retired or leaves screening (R323). -/
def Scrub.done (sc : Scrub) (p : Nat) (time : Word) : Scrub :=
  if sc.bits.contains p then sc else { sc with bits := sc.bits ++ [p], last := time }

/-- A tile that goes out of use, or comes back into it, is scrubbed as it does, for every scrub of its region. -/
def State.scrubAside (s : State) (p : Nat) : State :=
  { s with scrubs := s.scrubs.map (fun sc =>
      if sc.regions.getLsbD (regionPath.getD (regionOf p) 0) then sc.done p s.time else sc) }

/-- A tile takes the role of a retired one, and no screening of it goes on. -/
def State.outOfUse (s : State) (p : Nat) : State :=
  ((s.scrubAside p).updPTile p (fun t => { t with role := .retired })).updRel (fun x =>
    { x with screens := x.screens.filter (fun e => decide (e.ptile ≠ p)) })

/-- A vtile is still to move from a tile, or its move from it has not ended: the step that moves it has not reached the
thaw. -/
def State.leaving (s : State) (p : Nat) : Bool :=
  s.rel.rotations.any (fun e => match e.2 with
    | some x => decide (x.from_ = p) && decide (x.stage ≠ .done)
    | none => false)

/-- A step that moves a vtile from a tile is the move of its retirement from now on (R335). -/
def Reliability.toRetirement (l : Reliability) (p : Nat) : Reliability :=
  { l with rotations := l.rotations.map (fun e => (e.1, e.2.map (fun x =>
      if x.from_ = p && x.stage ≠ .done then { x with retire := true } else x))) }

/-- A tile is retired: at once when it holds no vtile and none is leaving it; else when its vtile has moved, by the step under
way if there is one (R335, R337). A step that has yet to reach a spare so retired is abandoned. Its entry takes its place in
the log's order now (R360). -/
def State.retire (s : State) (r : Retirement) : State :=
  let p := r.ptile.toNat
  if s.retiredSoon p then s
  else if s.vts.any (fun e => decide (e.2.ptile = p)) || s.leaving p then
    let r := { s.withVTile r p with waits := true }
    (s.updRel (fun x => { x.toRetirement p with retiring := x.retiring ++ [r] })).logRetirement r
  else
    ((s.abandonSteps (fun x => decide (x.dest = p) && (decide (x.stage = .warm) || decide (x.stage = .freezing)))).outOfUse
      p).logRetirement r

/-- The entry of a retirement whose vtile does not move: no vtile was moved, and no spare received one (R359). -/
def Retirement.unmoved (r : Retirement) : Retirement :=
  { r with part := 0xFF, tenant := 0xFF, vtile := 0xFFFF, spare := 0xFFFF }

/-- The entry of a tile's retirement is complete. -/
def State.entryReady (s : State) (p : Nat) (f : Retirement → Retirement) : State :=
  (s.updHealth (fun h => { h with pending := h.pending.map (fun r =>
    if r.waits && decide (r.ptile.toNat = p) then { f r with waits := false } else r) })).updRel (fun l =>
      { l with retiring := l.retiring.filter (fun r => decide (r.ptile.toNat ≠ p)) })

/-- Tiles to be retired that hold no vtile any more, and are in no step, are retired at once. -/
def State.retireEmpty (s : State) : State :=
  (s.rel.retiring.map (fun r => r.ptile.toNat)).foldl (fun t p =>
    if t.vts.any (fun e => decide (e.2.ptile = p)) || t.rotating p then t
    else (t.outOfUse p).entryReady p Retirement.unmoved) s

/-- The corrected tile-store errors of a tile within retpol's window: cewin (R327, R356). -/
def State.ceWindow (s : State) (p : Nat) : List Word :=
  (s.ptile p).ceTimes.filter (fun t => decide (s.since t < s.rel.win.toNat * 1000000000))

/-- The rule of retpol on corrected errors: enough of them within the window retire the tile. -/
def State.retireByErrors (s : State) (p : Nat) : State :=
  let l := s.ceWindow p
  if s.rel.ce ≠ 0 && decide (s.rel.ce.toNat ≤ l.length) then
    s.retire { time := s.time, ptile := BitVec.ofNat 16 p, reason := 1, detail := BitVec.ofNat 8 l.length,
               span := BitVec.ofNat 32 (((l.getLastD 0).toNat - (l.headD 0).toNat) / 1000000000) }
  else s

/-- CORRECTED_ERROR: an error in the structure c of a tile is corrected, c = 9 standing for its HBM slice (R339, R356). -/
def execCorrectedError (s : State) : Out :=
  let p := s.arg.p
  let c := s.arg.c
  if c = 9 then .next (s.updPTile p (fun t => { t with hbmce := satInc t.hbmce }))
  else if c < 1 || 8 < c then .next s
  else
    let u := s.updPTile p (fun t => { t with
      ce := Sparse.upd t.ce c satInc
      ceTimes := if c = 1 then t.ceTimes ++ [s.time] else t.ceTimes })
    .next (if c = 1 then (u.retireByErrors p).noted s else u)

end Sys2Proof.Machine
end

