-- ==== Sys2Proof/Machine/Rotation.lean ====
section
/-! DEFINITION. Rotation steps, retirement moves, screening, and what is lost: tiles, vtiles, stacks and well pages (R335
to R341). -/

namespace Sys2Proof.Machine

/-! Spares and steps (R335). -/

/-- The key of a chiplet's step: 2r + c. -/
def stepKey (r c : Nat) : Nat := 2 * r + c

/-- The step in progress in a chiplet. -/
def State.step (s : State) (r c : Nat) : Option Rotation := Sparse.get s.rel.rotations (stepKey r c)

/-- The state with a chiplet's step replaced. -/
def State.setStep (s : State) (r c : Nat) (x : Option Rotation) : State :=
  s.updRel (fun l => { l with rotations := Sparse.set l.rotations (stepKey r c) x })

/-- The spares of a chiplet that no step has taken, in path order. -/
def State.spares (s : State) (r c : Nat) : List Nat := (s.withRole r c .spare).filter (fun p => !s.rotating p)

/-- A tile of the region is in screening. -/
def State.screeningIn (s : State) (r : Nat) : Bool :=
  !(s.withRole r 0 .screening).isEmpty || !(s.withRole r 1 .screening).isEmpty

/-- The spare that a step takes: of the same chiplet; for a retirement else of the other one. -/
def State.pickSpare (s : State) (r c : Nat) (retire : Bool) : Option Nat :=
  match s.spares r c with
  | p :: _ => some p
  | [] => if retire then (s.spares r (1 - c)).head? else none

/-- The vtiles on a tile: the active one and the one in the shadow store, held together while a step moves them. -/
def State.keysOn (s : State) (p : Nat) : List Nat := (s.vts.filter (fun e => decide (e.2.ptile = p))).map (fun e => e.1)

/-- The active vtile on a tile. -/
def State.activeOn (s : State) (p : Nat) : Option Nat := (s.keysOn p).find? s.active

/-- A tile may be moved from: it is exposed, holds vtiles, is in no step, and has no stub that its vtile came by. -/
def State.movable (s : State) (p : Nat) : Bool :=
  decide ((s.ptile p).role = .exposed) && !(s.keysOn p).isEmpty && !s.rotating p

/-- rotint as it acts (R327). -/
def Reliability.stepInterval (r : Reliability) : Nat := max r.rotint.toNat 100000000

/-- The next tile that a routine step moves: cyclic in path order over the exposed tiles of a chiplet. -/
def State.nextRoutine (s : State) (r c : Nat) : Option Nat :=
  let i := Sparse.get s.rel.next (stepKey r c)
  (((List.range 64).map (fun j => tileOfPath r c ((i + j) % 64))).filter s.movable).head?

/-- A routine step is due in a chiplet. -/
def State.stepDue (s : State) (r c : Nat) : Bool :=
  s.rel.rotint ≠ 0 && decide (s.rel.stepInterval ≤ s.since (Sparse.get s.rel.stepTimes (stepKey r c)))

/-- The retirement whose move is next in a chiplet; after one that was abandoned, at the next rotint (R336). -/
def State.nextRetirement (s : State) (r c : Nat) : Option Retirement :=
  if Sparse.get s.rel.retry (stepKey r c) && s.rel.rotint ≠ 0 && !s.stepDue r c then none
  else s.rel.retiring.find? (fun x =>
    decide (regionOf x.ptile.toNat = r) && decide (chipletOf x.ptile.toNat = c) && s.movable x.ptile.toNat)

/-- A step starts: the spare is warmed from the committed checkpoint of the vtile. -/
def State.startStep (s : State) (r c p q : Nat) (retire : Bool) : State :=
  let ck := ((s.activeOn p).map (fun k => (s.tile k).ckTime)).getD 0
  let t := s.setStep r c (some { from_ := p, dest := q, retire := retire, t0 := ck })
  if retire then t.updRel (fun l => { l with
    retry := Sparse.set l.retry (stepKey r c) false
    stepTimes := if Sparse.get l.retry (stepKey r c) then Sparse.set l.stepTimes (stepKey r c) s.time else l.stepTimes })
  else t.updRel (fun l => { l with
    next := Sparse.set l.next (stepKey r c) ((pathIndex p + 1) % 64)
    stepTimes := Sparse.set l.stepTimes (stepKey r c) s.time })

/-- ROTATION_STEP_START: a retirement that waits comes first; a routine step needs a spare of its own chiplet. -/
def execRotationStepStart (s : State) : Out :=
  let r := s.arg.r
  let c := s.arg.c
  if (s.step r c).isSome || s.up.phase ≠ 7 || s.rel.rotStop then .next s
  else
    match s.nextRetirement r c with
    | some x =>
      match s.pickSpare r c true with
      | some q => .next (s.startStep r c x.ptile.toNat q true)
      | none => .next s
    | none =>
      match (if s.stepDue r c then s.nextRoutine r c else none), s.pickSpare r c false with
      | some p, some q =>
        .next (s.startStep r c p q false)
      | _, _ => .next s

/-! The move (R336, R337). -/

/-- The routers of a partition, in ascending tile order in each region. -/
def State.routersOf (s : State) (part : Nat) : List Nat :=
  (List.range 6144).filter (fun p => (Sparse.get s.parts part).regions.getLsbD (regionPath.getD (regionOf p) 0))

/-- Data from or to a vtile that had taken part of its route gives it up: its header flit sets out again from where the vtile
stands (R97 step 5). -/
def Msg.setBack (ks : List Nat) (m : Msg) : Msg :=
  if m.isData && m.parked && (ks.contains m.src.vt || ks.contains m.dst.vt) then { m with taken := 0 } else m

/-- A vtile stands on a new tile, with nothing cached. -/
def VTile.moveTo (t : VTile) (q : Nat) : VTile := { t with ptile := q, tlb := [], walks := [], discard := [] }

/-- The routers that get a map next: of each region the first one, for the regions go on in parallel (R336 step 5). -/
def nextRouters : List Nat → List Nat → List Nat
  | _, [] => []
  | rs, p :: l => if rs.contains (regionOf p) then nextRouters rs l else p :: nextRouters (regionOf p :: rs) l

/-- The vtiles of a tile stand on another one, and the routers are to get the new map; until then the old router holds the
messages for them. -/
def State.moveTile (s : State) (r c : Nat) (x : Rotation) : State :=
  let ks := s.keysOn x.from_
  let part := (ks.head?.map (fun k => (s.tile k).part)).getD 0
  let t := ks.foldl (fun u k => u.updTile k (fun v => v.moveTo x.dest)) s
  let l := s.routersOf part
  let u : State := { t with
    msgs := t.msgs.map (Machine.Msg.setBack ks)
    parts := Sparse.upd t.parts part (fun p =>
      { p with tiles := p.tiles.map (fun y => if y = x.from_ then x.dest else y) }) }
  (((u.updPTile x.from_ (fun y => { y with rot := satInc y.rot })).updPTile x.dest
      (fun y => { y with role := .exposed, rot := satInc y.rot })).setStep r c
    (some { x with stage := .mapping, routers := l, unacked := l, t1 := s.time })).noted s

/-- A step whose tile cannot be read: the vtile is put back to its committed checkpoint on the spare, and replays its
log (R337). -/
def State.moveFailed (s : State) (r c : Nat) (x : Rotation) : State :=
  let t := s.moveTile r c x
  match t.activeOn x.dest with
  | some k => (t.updTile k (fun v => { v with failed := false })).rollback k
  | none => t

/-- A tile stands in a partition that is changing: nothing moves from it. -/
def State.changingAt (s : State) (p : Nat) : Bool :=
  s.parts.any (fun e => e.2.regions.getLsbD (regionPath.getD (regionOf p) 0) && decide (e.2.state = 2))

/-- ROTATION_WARM_COMPLETE: the rotation freeze is requested; a failed tile, or one without an active vtile, needs
none. -/
def execRotationWarmComplete (s : State) : Out :=
  let r := s.arg.r
  let c := s.arg.c
  match s.step r c with
  | some x =>
    if x.stage ≠ .warm then .next s
    else if (s.ptile x.from_).failed then .next (s.moveFailed r c x)
    else
      match s.activeOn x.from_ with
      | some k => .next ((s.setStep r c (some { x with stage := .freezing })).updTile k (fun t => t.request .rotation))
      | none => if s.changingAt x.from_ then .next s else .next (s.moveTile r c x)
  | none => .next s

/-- The step of the tile that a vtile stands on. -/
def State.stepOf (s : State) (p : Nat) : Option (Nat × Nat × Rotation) :=
  s.rel.rotations.findSome? (fun e => match e.2 with
    | some x => if x.from_ = p then some (e.1 / 2, e.1 % 2, x) else none
    | none => none)

/-- The rotation freeze of a tile has come to rest: its state crosses to the spare (steps 3 and 4). -/
def State.rotateNow (s : State) (k : Nat) : State :=
  match s.stepOf (s.tile k).ptile with
  | some (r, c, x) => if x.stage = .freezing then s.moveTile r c x else s.release k
  | none => s.release k

/-- The state hash of a vtile: over its context image with the btime word, of which the generation is a part, and ageing at
zero, its tile store and its code store (R94, R338). -/
def VTile.stateHash (t : VTile) : List Byte :=
  let u := t.updIm (fun m => { m with procs := m.procs.map (fun e => (e.1, { e.2 with btime := 0, gen := 0, ageing := 0 })) })
  sha256 (u.imageBytes ++ t.im.tileStore ++ Memory.read t.im.code 0 (2 ^ 18))

/-- The screening of a tile, begun as the vtile that it held thaws elsewhere. -/
def State.screenOf (s : State) (x : Rotation) : Screen :=
  let k := (s.activeOn x.dest).getD 0
  { ptile := x.from_, vt := k, t0 := x.t0, t1 := x.t1, hash := (s.tile k).stateHash, pages := (s.tile k).oldPages }

/-- The last router has the new map: the vtile thaws on the spare, the router of the tile it left becomes a forwarding stub
(step 6), and that tile is screened or retired. -/
def State.thawMoved (s : State) (r c : Nat) (x : Rotation) : State :=
  let t := s.updPTile x.from_ (fun p => { p with stub := some x.dest })
  let u := if x.retire then t.outOfUse x.from_
    else (t.updPTile x.from_ (fun p => { p with role := .screening })).updRel (fun l => { l with screens := l.screens ++
      [s.screenOf x] })
  let v := (u.setStep r c (some { x with stage := .done, routers := [] })).noted s
  match s.activeOn x.dest with
  | some k =>
    if ((s.tile k).freeze.map (fun f => f.kind)) = some .rotation then v.release k else v
  | none => v

/-- ROUTER_MAP_UPDATE: the new map reaches the next router of each region (step 5); after the last one the vtile thaws
(step 6). -/
def execRouterMapUpdate (s : State) : Out :=
  let r := s.arg.r
  let c := s.arg.c
  match s.step r c with
  | some x =>
    if x.stage ≠ .mapping then .next s
    else
      let l := nextRouters [] x.routers
      let y := { x with routers := x.routers.filter (fun p => !l.contains p) }
      if y.routers.isEmpty then .next (s.thawMoved r c y) else .next (s.setStep r c (some y))
  | none => .next s

/-- The entry of a retirement is complete: the vtile moved, and the spare that received it (R294, R359). -/
def State.enterRetirement (s : State) (x : Rotation) : State :=
  s.entryReady x.from_ (fun y => { s.withVTile y x.dest with spare := BitVec.ofNat 16 x.dest })

/-- The messages still at a tile's stub go on to the new tile. -/
def State.emptyStub (s : State) (p q : Nat) : State :=
  { s with msgs := s.msgs.map (fun m => if m.tile = p && s.astray m then Machine.Msg.forward m q else m) }

/-- Every router has acknowledged: the stub is removed, the step has ended, and a checkpoint of the vtile is due (R328). -/
def State.stepEnds (s : State) (r c : Nat) (x : Rotation) : State :=
  let t := ((s.emptyStub x.from_ x.dest).updPTile x.from_ (fun p => { p with stub := none })).setStep r c none
  let u := if x.retire then t.enterRetirement x else t
  match u.activeOn x.dest with
  | some k => u.updTile k (fun v => { v with ckDue := true })
  | none => u

/-- ROUTER_MAP_ACK: a router that has the map acknowledges it. -/
def execRouterMapAck (s : State) : Out :=
  let r := s.arg.r
  let c := s.arg.c
  match s.step r c with
  | some x =>
    if x.routers.contains s.arg.p || !x.unacked.contains s.arg.p then .next s
    else
      let y := { x with unacked := x.unacked.filter (fun p => p != s.arg.p) }
      if y.unacked.isEmpty && y.stage = .done then .next (s.stepEnds r c y) else .next (s.setStep r c (some y))
  | none => .next s

/-! Screening (R338). -/

/-- A tile's screening has ended with a role; its margin is the one measured, if it was. -/
def State.screened (s : State) (p : Nat) (role : Role) (count : PTile → PTile) : State :=
  ((s.scrubAside p).updPTile p (fun t => count { t with
    role := role
    margin := if s.arg.screen = .bistFail then t.margin else s.arg.rate })).updRel (fun l =>
      { l with screens := l.screens.filter (fun e => decide (e.ptile ≠ p)) })

/-- One more screening passed. -/
def PTile.passed (t : PTile) : PTile := { t with scrp := satInc t.scrp }

/-- One more screening failed. -/
def PTile.notPassed (t : PTile) : PTile := { t with scrf := satInc t.scrf }

/-- A failed screening retires its tile; a failure of BIST or of the margin does so without a report. -/
def State.screenRetire (s : State) (p reason detail : Nat) (t0 t1 : Word) : State :=
  let r : Retirement := {
    time := s.time, ptile := BitVec.ofNat 16 p, reason := BitVec.ofNat 8 reason, detail := BitVec.ofNat 8 detail,
    t0 := t0, t1 := t1 }
  let t := s.screened p .retired PTile.notPassed
  if reason = 3 then t.enterLog r else t.logRetirement r

/-- The pool of the cistern cannot hold every snapshot of the interval replayed, which are kept until the screening ends: those
at the thaw, and while the vtile's checkpoint is still there those taken since. -/
def State.screenFull (s : State) (x : Screen) : Bool :=
  let t := s.tile x.vt
  decide (poolPages ≤ (x.pages ++ (if t.ck.any (fun c => decide (c.home = partnerOf x.ptile)) then
    t.snaps.filter (fun e => !(x.pages.any (fun f => f.1 == e.1))) else [])).length)

/-- A report of a screening, over the interval replayed. -/
def State.screenReport (s : State) (x : Screen) (ty : BitVec 8) : State :=
  s.report { s.reportOf x.vt ty x.t0 0 with t1 := x.t1, ptile := BitVec.ofNat 16 x.ptile }

/-- A screening ends: BIST failed, or the margin measured has fallen too far, or there is no verdict, or the replay diverged or
its state hash is not that of the vtile on its new tile, or it passes. -/
def State.endScreening (s : State) (x : Screen) : State :=
  let p := x.ptile
  if s.arg.screen = .bistFail then s.screenRetire p 3 1 0 0
  else if s.marginFails s.arg.rate then s.screenRetire p 3 2 0 0
  else if s.screenFull x then (s.screened p .spare id).screenReport x 9
  else if s.arg.screen = .diverged || s.arg.bytes ≠ x.hash then
    let t := s.screenReport x 2
    if s.rel.scr then t.screenRetire p 2 0 x.t0 x.t1 else t.screened p .spare PTile.notPassed
  else s.screened p .spare PTile.passed

/-- SCREENING_COMPLETE: the screening of a tile ends, with what BIST and the replay found, the margin measured and the state hash
of the replay. -/
def execScreeningComplete (s : State) : Out :=
  match s.rel.screens.find? (fun e => decide (e.ptile = s.arg.p)) with
  | none => .next s
  | some x => .next ((s.endScreening x).noted s)

/-! Losses (R337, R339, R340). -/

/-- The ends and latch records of the other vtiles of a network that the loss of a vtile reaches. -/
def State.lossReaches (s : State) (k : Nat) : List (Nat × Nat) :=
  (s.vts.filter (fun v => decide (v.1 / 65536 = k / 65536) && decide (v.1 ≠ k))).flatMap (fun v =>
    ((v.2.im.ends.filter (fun e => !e.2.xp && decide (e.2.pvt.toNat = k % 65536) && decide (e.2.st ≠ .unbound))).map
        (fun e => (v.1, e.1)))
      ++ (((s.netOf k).latches.filter (fun e => decide (e.2.home = k % 65536)
          && e.2.members.any (fun g => decide (g.1 = v.1 % 65536)))).map (fun e => (v.1, 256 + e.1))))

/-- A member of a latch homed elsewhere, lost with its vtile, counts as dropped. -/
def State.memberLost (s : State) (k q e : Nat) : State :=
  let h := s.latHome k e
  if !(s.procAt k q).member e || h = k then s
  else
    let r := (s.tile k).latch e
    s.emit { src := { vt := k, idx := latIdx e }, dst := { vt := h, idx := latIdx e },
             kind := (if r.arrived q then MsgKind.latLeave r.lp else MsgKind.latDrop) }

/-- The latches homed on a lost vtile are SPENT at their phases. -/
def VTile.spendHomes (t : VTile) : VTile :=
  t.updIm (fun m => { m with homes := m.homes.map (fun e => (e.1, { e.2 with e := 0, c := 0, d := 0, counted := [] })) })

/-- A vtile is lost: its ends break at their peers, the latches homed on it are SPENT, its members of others count as dropped,
what is under way to it is discarded, and it is reported (R340). -/
def State.loseVTile (s : State) (k : Nat) : State :=
  if (s.tile k).lost then s
  else
    let t := (List.range 8).foldl (fun u q => (List.range 256).foldl (fun v e => v.memberLost k q e) u) s
    let u : State := { t.updTile k (fun v => { v.spendHomes with lost := true, requests := [], freeze := none }) with
      msgs := t.msgs.filter (fun m => decide (m.dst.vt ≠ k)) }
    let v := (s.lossReaches k).foldl (fun w e => w.breakAt e.1 e.2) u
    (((v.report (v.reportOf k 7 v.time 0)).finish (k / 65536)).refreshFull (s.tile k).part)

/-- TILE_FAILURE: a tile fails and cannot be read; its vtile is to be moved to a spare from its committed checkpoint,
with a retirement of reason 4 (R337). -/
def execTileFailure (s : State) : Out :=
  let p := s.arg.p
  let t := (s.keysOn p).foldl (fun u k => if u.active k then u.updTile k (fun v => { v with failed := true }) else u)
    (s.updPTile p (fun x => { x with failed := true }))
  let r : Retirement := { time := s.time, ptile := BitVec.ofNat 16 p, reason := 4 }
  match s.stepOf p with
  | some (i, c, x) =>
    if x.stage = .freezing then
      .next (((t.retire r).setStep i c (some { x with stage := .warm, retire := true })).noted s)
    else .next (((t.retire r).setStep i c (some { x with retire := true })).noted s)
  | none => .next ((t.retire r).noted s)

/-- VTILE_LOST: the tile of a vtile has failed, and its region has no spare and no tile in screening. -/
def execVtileLost (s : State) : Out :=
  let k := s.arg.k
  let p := (s.tile k).ptile
  let r := regionOf p
  if s.hasTile k && (s.ptile p).failed && (s.spares r 0).isEmpty && (s.spares r 1).isEmpty && !s.screeningIn r && !s.rotating p then
    .next ((((s.loseVTile k).updPTile p (fun t => { t with role := .lost })).entryReady p Retirement.unmoved).noted s)
  else .next s

/-- A tile of what is lost: its vtiles with it. A retired one stays retired, and the entry of one that was to be retired is
complete. -/
def State.loseTile (s : State) (p : Nat) : State :=
  (((s.keysOn p).foldl State.loseVTile s).updPTile p (fun t =>
    { t with role := if t.role = .retired then .retired else .lost })).entryReady p Retirement.unmoved

/-- A report of a stack or a region. -/
def State.reportPlace (s : State) (ty : BitVec 8) (p aux : Nat) : State :=
  s.report {
    ty := ty, vtile := 0xFFFF, ptile := BitVec.ofNat 16 p, t0 := s.time, t1 := s.time, aux := BitVec.ofNat 64 aux
    tenant := 0xFF, part := 0xFF }

/-- The checkpoints of a vtile whose cisterns lie in lost slices are lost (R331). -/
def VTile.loseCisterns (t : VTile) (gone : Nat → Bool) : VTile :=
  let u := if t.staged.any (fun c => gone c.home) then { t with staged := none, stagedSnaps := [], marked := [] } else t
  if t.ck.any (fun c => gone c.home) then { u with ck := none, snaps := [], unmerged := false } else u

/-- STACK_LOST: a stack of a region is lost, with the vtiles whose slices it holds and the checkpoints that lie on it; mappings
onto it are refused from now on (R68, R331, R340). -/
def execStackLost (s : State) : Out :=
  let r := s.arg.r
  let c := s.arg.c
  if s.stackLost r c then .next s
  else
    let u := s.updRegion r (fun x => if c = 0 then { x with stack0Lost := true } else { x with stack1Lost := true })
    let t := u.running.foldl (fun t k => t.updTile k (fun v =>
      v.loseCisterns (fun p => decide (regionOf p = r) && decide (chipletOf p = c)))) u
    .next ((((chipletTiles r c).filter (fun p => !(s.keysOn p).isEmpty)).foldl State.loseTile
      (t.reportPlace 5 (tileOfPath r c 0) 0)).noted s)

/-- WELL_PAGE_LOST: an uncorrectable error in a well page without a snapshot: the entry goes to M = 0, and the loss is
reported with its page (R339, R341). -/
def execWellPageLost (s : State) : Out :=
  let k := s.arg.k
  let g := s.arg.j
  let v := Sparse.get (s.tile k).pt g
  if !entryM v || s.snapshotted k g then .next s
  else
    let t := (s.mapPage k g (v &&& ~~~1)).retable k (fun t => { t with tlb := Sparse.drop t.tlb g })
    .next (t.report (t.reportOf k 3 t.time (BitVec.ofNat 64 g)))

/-! Reports (R341). -/

/-- log2 of the report ring's entries. -/
def Reliability.ringLog (r : Reliability) : Nat := if 4 ≤ r.rrsize.toNat && r.rrsize.toNat ≤ 12 then r.rrsize.toNat else 4

/-- The 64 B of a report. -/
def Report.entry (r : Report) : List Byte :=
  toBytes 1 r.ty.toNat ++ toBytes 1 r.tenant.toNat ++ toBytes 2 r.vtile.toNat ++ toBytes 2 r.part.toNat
    ++ toBytes 2 r.ptile.toNat ++ toBytes 8 r.t0.toNat ++ toBytes 8 r.t1.toNat ++ toBytes 8 r.count.toNat
    ++ toBytes 8 r.aux.toNat ++ toBytes 8 r.rseq.toNat ++ List.replicate 16 0

/-- A report may be written: one of a drop once 1 ms has passed since its first event, so that those within it are merged. -/
def State.mayReport (s : State) (r : Report) : Bool := decide (r.ty ≠ 4) || decide (1000000 ≤ s.since r.t0)

/-- REPORT_WRITE: the oldest report is written when the ring has room, and vector 2 raised. -/
def execReportWrite (s : State) : Out :=
  match s.rel.waiting with
  | [] => .next s
  | r :: l =>
    if s.mayReport r && s.rel.rren && s.up.hostLink && (s.rel.rrtl - s.rel.rrhd).toNat < 2 ^ s.rel.ringLog then
      let a := s.rel.rrbase.toNat + 64 * (s.rel.rrtl.toNat % 2 ^ s.rel.ringLog)
      let t : State := { s with hostMem := Memory.write s.hostMem a r.entry }
      .next ((t.updRel (fun x => { x with waiting := l, rrtl := x.rrtl + 1 })).raiseVector manage)
    else .next s

end Sys2Proof.Machine
end

