-- ==== Sys2Proof/Machine/Power.lean ====
section
/-! DEFINITION. Power and thermal emergencies, loss of power, and the ramps of the regions (R342 to R346). -/

namespace Sys2Proof.Machine

/-! The estimate of an eviction (R350, R352). -/

/-- The page number that the header of a tile image shows (R351). -/
def imageUnit : Nat := 0x3FFF

/-- The state with the eviction registers changed. -/
def State.updEv (s : State) (f : Eviction → Eviction) : State := { s with ev := f s.ev }

/-- The link entry of an optical port. -/
def State.opticalLink (s : State) (port : Nat) : Link := Sparse.get s.links (opticalBase + port)

/-- The named ports whose entry shows the target's serial. -/
def State.namedPorts (s : State) : List Nat :=
  (List.range 48).filter (fun p => s.ev.ports.getLsbD p && decide ((s.opticalLink p).peer = s.ev.serial))

/-- The named ports that may carry state: live, and to the target. -/
def State.livePorts (s : State) : List Nat := s.namedPorts.filter (fun p => s.linkLive (opticalBase + p))

/-- The sum of their rates, in MB/s. -/
def State.evRate (s : State) : Nat := (s.livePorts.map (fun p => (s.opticalLink p).rate.toNat)).foldl (· + ·) 0

/-- err of evstat: 2 when no named port shows the target, 1 when none is live to it. -/
def State.evError (s : State) : BitVec 8 := if s.namedPorts.isEmpty then 2 else if s.livePorts.isEmpty then 1 else 0

/-- The bytes that the estimate takes for a unit: 2,432 KiB of a tile image, as the example after R353 has it, and a page
(log entry 105). -/
def unitSize (u : Nat × Nat) : Nat := if u.2 = imageUnit then 2432 * 1024 else 65536

/-- The bytes of some units. -/
def unitsSize (l : List (Nat × Nat)) : Nat := (l.map unitSize).foldl (· + ·) 0

/-- 30 s. -/
def lateLimit : Nat := 30000000000

/-- The estimate is set, and late with it: the base time, then the bytes left at the rate; all ones without a rate. -/
def State.setEst (s : State) (base left rate : Nat) : State :=
  let est : Word := if rate = 0 then BitVec.allOnes 64 else BitVec.ofNat 64 (base + left * 1000 / rate)
  s.updEv (fun e => { e with est := est, late := decide (lateLimit < est.toNat) })

/-- 0.5 s. -/
def drainTime : Nat := 500000000

/-- An eviction of the blade is in progress: steps 1 to 5 (R350). -/
def State.evicting (s : State) : Bool := decide (1 ≤ s.ev.step.toNat) && decide (s.ev.step.toNat ≤ 5)

/-- What follows from a change of ports, target or links: err, and in step 3 the estimate when the rate has changed. -/
def State.reviseEv (s : State) : State :=
  if !s.evicting then s
  else
    let r := s.evRate
    let t := s.updEv (fun e => { e with err := s.evError })
    if s.ev.step = 3 && decide (r ≠ s.ev.rate) then
      (t.updEv (fun e => { e with rate := r })).setEst (s.since s.ev.since + drainTime) (unitsSize s.ev.todo) r
    else t

/-! Emergencies (R100, R343, R346). -/

/-- The active vtiles of a region. -/
def State.activeIn (s : State) (r : Nat) : List Nat := s.running.filter (fun k => decide (regionOf (s.tile k).ptile = r))

/-- Every tile of a region is asked to freeze as an emergency. -/
def State.emergencyIn (s : State) (r : Nat) : State :=
  (s.activeIn r).foldl (fun t k => t.updTile k (fun v => v.request .emergency)) s

/-- A region takes an emergency, also while its ramp is under way. -/
def State.takeEmergency (s : State) (r : Nat) (f : Region → Region) : State :=
  if (s.region r).live then ((s.updRegion r f).emergencyIn r).noted s else s

/-- The regions that share an edge with a region (R344). -/
def neighbours (r : Nat) : List Nat :=
  let x := r % 8
  let y := r / 8
  (if 0 < x then [r - 1] else []) ++ (if x < 7 then [r + 1] else []) ++ (if 0 < y then [r - 8] else [])
    ++ (if y < 5 then [r + 8] else [])

/-- A ramp holds its current and waits; one past its limit waits no more (R344). -/
def Region.hold (x : Region) (t : Word) : Region :=
  if x.power = .ramping then { x with power := .held, heldSince := t } else x

/-- A region takes a power emergency; the ramp of a neighbour waits for its end (R344). -/
def State.takePower (s : State) (r : Nat) (f : Region → Region) : State :=
  if (s.region r).live then
    (neighbours r).foldl (fun t n => t.updRegion n (fun x => x.hold s.time)) (s.takeEmergency r f)
  else s

/-- A region is in a power emergency. -/
def Region.powerEmergency (x : Region) : Bool := x.emPower || x.emSupply

/-- An emergency of a region clears; once none is left, a request not yet accepted is none any more. -/
def State.clearEmergency (s : State) (r : Nat) (f : Region → Region) : State :=
  let t := s.updRegion r f
  (if (t.region r).emergency then t
   else (t.activeIn r).foldl (fun u k => u.updTile k (fun v =>
     if v.emergency then v else { v with requests := v.requests.filter (fun q => decide (q ≠ .emergency)) })) t).noted s

/-- The regions of the panel. -/
def allRegions : List Nat := List.range 48

/-- A change of every region. -/
def State.eachRegion (s : State) (f : State → Nat → State) : State := allRegions.foldl f s

/-- SUPPLY_OUT_OF_RANGE: the supply has been out of range for 1 ms. -/
def execSupplyOutOfRange (s : State) : Out :=
  if s.health.supplyOut then .next s
  else
    .next ((s.eachRegion (fun t r => t.takePower r (fun x => { x with emSupply := true }))).updHealth
      (fun h => { h with supplyOut := true, supplySince := s.time, absentNs := 0 }))

/-- SUPPLY_BACK_IN_RANGE: the supply is back before 100 ms have passed. -/
def execSupplyBackInRange (s : State) : Out :=
  if s.health.supplyOut then
    let t : State := { s with ev := { s.ev with supplyAbsent := false } }
    .next ((t.eachRegion (fun t r => t.clearEmergency r (fun x => { x with emSupply := false }))).updHealth
      (fun h => { h with supplyOut := false }))
  else .next s

/-- 100 ms. -/
def supplyLimit : Nat := 100000000

/-- Nanoseconds for which the supply has been out of range: power-downs and resets, at which package time restarts, do not
shorten them (R353). -/
def State.supplyAway (s : State) : Nat :=
  if s.health.supplyOut then s.health.absentNs + s.since s.health.supplySince else 0

/-- The panel without power: what the non-volatile stores hold, what stands outside, and nothing else. An entry of the
retirement log that was being programmed is torn (R343, R357, R360). -/
def State.withoutPower (s : State) : State :=
  { State.reset with
    turn := s.turn, count := s.count, inputs := s.inputs, hostMem := s.hostMem, peerMem := s.peerMem, msix := s.msix
    ptiles := s.health.nv
    ev := { State.reset.ev with latchOpen := s.ev.latchOpen, supplyAbsent := s.ev.supplyAbsent }
    health := { State.reset.health with
      supplyOut := s.health.supplyOut, absentNs := s.supplyAway, hstate := s.health.hstate, eeprom0 := s.health.eeprom0
      eeprom1 := s.health.eeprom1, eeseq := s.health.eeseq, inband := s.health.inband, nv := s.health.nv
      log := s.health.log, logCount := s.health.logCount, torn := s.openSlot } }

/-- Every region is off: all state is lost, and the health state that follows is published (R306, R343, R358). -/
def State.powerLost (s : State) : State := s.withoutPower.publishHealth

/-- SUPPLY_POWERDOWN: the supply is still out of range 100 ms later: every region is powered down and all state is lost. -/
def execSupplyPowerdown (s : State) : Out :=
  if s.health.supplyOut && supplyLimit ≤ s.supplyAway then .next s.powerLost else .next s

/-- REGION_OVERCURRENT: the region takes a power emergency. -/
def execRegionOvercurrent (s : State) : Out :=
  .next (s.takePower s.arg.r (fun x => { x with emPower := true }))

/-- POWER_EMERGENCY_CLEAR: the region's current has stayed below 1,035 A for 1 ms. -/
def execPowerEmergencyClear (s : State) : Out :=
  .next (s.clearEmergency s.arg.r (fun x => { x with emPower := false }))

/-- THERMAL_EMERGENCY: a sensor of the region at 105 degrees. -/
def execThermalEmergency (s : State) : Out := .next (s.takeEmergency s.arg.r (fun x => { x with emThermal := true }))

/-- THERMAL_EMERGENCY_CLEAR: every sensor of the region below 95 degrees. -/
def execThermalEmergencyClear (s : State) : Out :=
  .next (s.clearEmergency s.arg.r (fun x => { x with emThermal := false }))

/-- COOLANT_FLOW_LOW: the flow has been below its minimum for 2 s. -/
def execCoolantFlowLow (s : State) : Out :=
  if s.health.flowLow then .next s
  else
    .next ((s.eachRegion (fun t r => t.takeEmergency r (fun x => { x with emFlow := true }))).updHealth
      (fun h => { h with flowLow := true, flowSince := s.time }))

/-- COOLANT_FLOW_RESTORED: the flow is back before 10 s have passed. -/
def execCoolantFlowRestored (s : State) : Out :=
  if s.health.flowLow then
    .next ((s.eachRegion (fun t r => t.clearEmergency r (fun x => { x with emFlow := false }))).updHealth
      (fun h => { h with flowLow := false }))
  else .next s

/-- The links of a lost region are missing (R298), which an eviction's estimate follows (R352); without the entry of the host
link there is no host link. -/
def State.loseLinks (s : State) (r : Nat) : State :=
  let t : State := { s with links := s.links.map (fun e => (e.1, if e.2.regions.contains r then e.2.missing else e.2)) }
  State.reviseEv { t with up := { t.up with hostLink := t.up.hostLink && !t.linkMissing hostLinkEntry } }

/-- A region is lost: powered down, with its vtiles, its links missing, and a report of type 6 (R340, R346). -/
def State.loseRegion (s : State) (r : Nat) : State :=
  if (s.region r).power = .lost then s
  else
    ((((regionTiles r).foldl State.loseTile (s.bankPower r)).updRegion r (fun _ => { power := .lost })).loseLinks r).reportPlace 6
      (tileOfPath r 0 0) 0

/-- 10 s. -/
def flowLimit : Nat := 10000000000

/-- COOLANT_FLOW_POWERDOWN: the flow is still low 10 s later: every region is powered down and lost. -/
def execCoolantFlowPowerdown (s : State) : Out :=
  if s.health.flowLow && flowLimit ≤ s.since s.health.flowSince then .next ((s.eachRegion State.loseRegion).noted s)
  else .next s

/-- FREEZE_RELEASE: an emergency freeze that has come to rest is released when no emergency of the region is left and the
monitor has been reloaded after a fault of its own (R91, R100). -/
def execFreezeRelease (s : State) : Out :=
  let k := s.arg.k
  let t := s.tile k
  if t.quiescent && (t.freeze.map (fun f => f.kind)) = some .emergency && !t.emergency
      && !(s.region (regionOf t.ptile)).emergency then .next (s.release k)
  else .next s

/-! Ramps (R344). -/

/-- RAMP_NEIGHBOUR_HOLD: a neighbour draws more than 1,035 A. -/
def execRampNeighbourHold (s : State) : Out := .next (s.updRegion s.arg.r (fun x => x.hold s.time))

/-- A ramp that waited goes on, with its wait counted. -/
def State.resumeRamp (s : State) (r : Nat) (p : Power) : State :=
  s.updRegion r (fun x => { x with power := p, waited := x.waited + s.since x.heldSince })

/-- RAMP_NEIGHBOUR_RELEASE: no neighbour draws more than 1,035 A; one in a power emergency counts as above it. -/
def execRampNeighbourRelease (s : State) : Out :=
  let r := s.arg.r
  if (s.region r).power = .held && !((neighbours r).any (fun n => (s.region n).powerEmergency)) then
    .next (s.resumeRamp r .ramping)
  else .next s

/-- 10 ms. -/
def rampLimit : Nat := 10000000

/-- RAMP_WAIT_LIMIT: the waits of a ramp total 10 ms, and it waits no more. -/
def execRampWaitLimit (s : State) : Out :=
  let r := s.arg.r
  let x := s.region r
  if x.power = .held && rampLimit ≤ x.waited + s.since x.heldSince then .next (s.resumeRamp r .noWait) else .next s

/-- A region's ramp begins; it waits at once for a neighbour in a power emergency (R344). -/
def State.startRamp (s : State) (r : Nat) : State :=
  s.updRegion r (fun x => ({ x with power := .ramping, waited := 0, pwrFrom := s.count, divided := false, emPower := false, emThermal := false }
    : Region) |> fun y => if (neighbours r).any (fun n => (s.region n).powerEmergency) then y.hold s.time else y)

/-- A region's ramp has ended: it is on, with the emergencies that every region is in, or lost (R343, R346). -/
def State.rampEnds (s : State) (r : Nat) (ok : Bool) : State :=
  (if ok then s else s.bankPower r).updRegion r (fun x =>
    if ok then { x with power := .on, emSupply := s.health.supplyOut, emFlow := s.health.flowLow } else { power := .lost })

/-- REGION_RAMP_COMPLETE: a region has reached its idle current, or, with ok false, its converter has failed and it is
lost; at bring-up the next region of the path follows, and training after the last one (R298, R344). -/
def execRegionRampComplete (s : State) : Out :=
  let r := s.arg.r
  let x := s.region r
  if x.power ≠ .ramping && x.power ≠ .noWait then .next s
  else
    let t := (if s.arg.ok then s.rampEnds r true else (s.rampEnds r false).loseLinks r).noted s
    if s.up.phase ≠ 3 then .next t
    else
      let i := regionPath.getD r 0
      if i = 47 then .next { t with up := { t.up with phase := 4 } } else .next (t.startRamp (regionAt (i + 1)))

end Sys2Proof.Machine
end

