-- ==== Sys2Proof/Machine/BringUp.lean ====
section
/-! DEFINITION. Bring-up, resets, package time, and the reload of the monitors (R13, R92, R296 to R300, R305 to R307,
R361). -/

namespace Sys2Proof.Machine

/-- The state with the bring-up registers changed. -/
def State.updUp (s : State) (f : BringUp → BringUp) : State := { s with up := f s.up }

/-- The host reaches the functions: a link is there, and no reset stands (R302, R306). -/
def State.hostReaches (s : State) : Bool := !s.up.reset && s.up.hostLink

/-- The physical function's BAR0 and BAR2 are open whole: the host reaches it, it is not in D3hot (R302), and bring-up has left
step 1, in which BAR0 shows only the registers of R297 (R298). -/
def State.barOpen (s : State) : Bool := s.hostReaches && !s.up.d3 && decide (s.up.phase ≠ 1)

/-- PERST_DEASSERT: the controller boots from ROM and waits for a bundle (R298 step 1). The host link comes up, unless with
c = 1 the host cannot use FLIT mode (R302). A blade that is powered stands latched. -/
def execPerstDeassert (s : State) : Out :=
  if s.up.reset && !s.health.supplyOut then
    let t := s.updUp (fun u => { u with reset := false, hostLink := decide (s.arg.c ≠ 1), phase := 1 })
    .next { t with ev := { t.ev with latchOpen := false, supplyAbsent := false } }
  else .next s

/-- CONVENTIONAL_RESET: PERST# powers every region down; all state is lost, and bring-up starts again (R306). -/
def execConventionalReset (s : State) : Out := .next s.powerLost

/-! The bundle (R296, R298). -/

/-- A write of bdlgo: a check starts with what bdladdr and bdllen hold. -/
def State.writeGo (s : State) (v : Word) : State :=
  if !s.hostReaches || s.up.d3 || !v.getLsbD 0 then s
  else
    match s.up.phase.toNat with
    | 1 | 15 => (s.updUp (fun u => { u with phase := 2, err := 0, goaddr := u.bdladdr, golen := u.bdllen })).noted s
    | 7 => s.updUp (fun u => { u with err := 5 })
    | _ => s

/-- BDLGO_WRITE: a write of go. -/
def execBdlgoWrite (s : State) : Out := .next (s.writeGo s.arg.v)

/-- A field of `n` bytes at an offset of a list of bytes. -/
def leField (l : List Byte) (off n : Nat) : Nat := ofBytes ((l.drop off).take n)

/-- The components of a bundle: offset and length. -/
def bundleParts (l : List Byte) : List (Nat × Nat) :=
  [0x08, 0x10, 0x18, 0x20].map (fun o => (leField l o 4, leField l (o + 4) 4))

/-- The header of a bundle holds. That bdllen has to be the total and the signature part, and the reserved bytes zero, is the
model's choice (log entry 124). -/
def bundleHeader (l : List Byte) : Bool :=
  decide (64 ≤ l.length) && decide (leField l 0 4 = 0x4E444C42) && decide (leField l 4 4 = 1)
    && decide (leField l 0x28 4 ≤ 0x04000000) && decide (leField l 0x2C 20 = 0)
    && decide (l.length = leField l 0x28 4 + 7856)

/-- Two components do not overlap. -/
def apart (a b : Nat × Nat) : Bool := decide (a.1 + a.2 ≤ b.1) || decide (b.1 + b.2 ≤ a.1)

/-- The components of a bundle hold: each inside the bundle and aligned, no two overlapping. -/
def bundleFits (l : List Byte) : Bool :=
  let p := bundleParts l
  p.all (fun c => decide (0x40 ≤ c.1) && decide (c.1 + c.2 ≤ leField l 0x28 4) && decide (c.1 % 64 = 0))
    && (List.range 4).all (fun i => (List.range i).all (fun j => apart (p.getD i (0, 0)) (p.getD j (0, 0))))

/-- The error of a bundle's check; `failed` says that its read failed. -/
def bundleError (l : List Byte) (failed : Bool) : Nat :=
  if failed then 2
  else if !bundleHeader l then 1
  else if !Config.bundleSignatureHolds l then 3
  else if !bundleFits l then 4
  else 0

/-- BUNDLE_CHECK_DONE: the bundle is read from host memory and checked; with ok, or without a host link, its read has failed.
Power follows, or phase 15 (R298 step 3). -/
def execBundleCheckDone (s : State) : Out :=
  if s.up.phase ≠ 2 then .next s
  else
    let l := Memory.read s.hostMem s.up.goaddr.toNat s.up.golen.toNat
    let e := bundleError l (s.arg.ok || !s.up.hostLink)
    if e ≠ 0 then .next ((s.updUp (fun u => { u with phase := 15, err := BitVec.ofNat 8 e })).noted s)
    else
      let m := (bundleParts l).getD 1 (0, 0)
      .next (((s.updUp (fun u => { u with phase := 3, bundle := l, monitor := (l.drop m.1).take m.2 })).startRamp
        (regionAt 0)).noted s)

/-! Links (R298 step 5, R299, R300, R348). -/

/-- The kind, the near and far ends, and the nominal rate and latency of a link entry. -/
def linkNominal (i : Nat) : Link :=
  if i < 12288 then
    let p := i / 2
    let far := if i % 2 = 0 then tileAt (regionOf p) ((meshU p + 1) % 16) (meshW p)
      else tileAt (regionOf p) (meshU p) ((meshW p + 1) % 8)
    { kind := 0, near := BitVec.ofNat 16 p, far := BitVec.ofNat 16 far, rate := 108800 }
  else if i < opticalBase then
    let a := (i - 12288) / 47
    let b := (i - 12288) % 47
    { kind := 1, near := BitVec.ofNat 16 a, far := BitVec.ofNat 16 (if b < a then b else b + 1), rate := 28000, lat := 45000 }
  else if i < hostLinkEntry then { kind := 2, near := BitVec.ofNat 16 (i - opticalBase), rate := 896000 }
  else { kind := 3, near := 63, rate := 256000 }

/-- A lane of a port. -/
def State.lane (s : State) (port lane : Nat) : Lane := Sparse.get s.lanes (port * 64 + lane)

/-- A fibre pair works: its 16 lanes have locked, to one peer. -/
def State.pairWorks (s : State) (port pair : Nat) : Bool :=
  let l0 := s.lane port (pair * 16)
  (List.range 16).all (fun j =>
    let l := s.lane port (pair * 16 + j)
    l.locked && !l.failed && decide (l.serial = l0.serial) && decide (l.far = l0.far))

/-- The pairs of a port that work with the panel on its lowest working pair. -/
def State.goodPairs (s : State) (port : Nat) : List Nat :=
  let l := (List.range 4).filter (s.pairWorks port)
  match l with
  | [] => []
  | p :: _ => l.filter (fun q => decide ((s.lane port (q * 16)).serial = (s.lane port (p * 16)).serial)
      && decide ((s.lane port (q * 16)).far = (s.lane port (p * 16)).far))

/-- The entry of an optical port by its working pairs (R348). -/
def State.opticalEntry (s : State) (port : Nat) (l : Link) : Link :=
  match s.goodPairs port with
  | [] => l.missing
  | p :: r =>
    let x := s.lane port (p * 16)
    let y := { l with far := BitVec.ofNat 16 x.far, peer := x.serial }
    if r.length = 3 then y
    else if r.length = 0 then { y with cond := 2, rate := 224000 }
    else { y with cond := 1, rate := 448000 }

/-- The conditions of a link that is not full: half or quarter width, half rate, missing (R300). -/
def isCond (c : Nat) : Bool := c = 1 || c = 2 || c = 3 || c = 15

/-- A link entry with what was found of it: a condition of the table below its own, with its rate. -/
def Link.found (l : Link) (cond : Nat) (rate : BitVec 32) : Link :=
  if l.cond = 15 || !isCond cond then l
  else if cond = 15 then l.missing
  else if rate.toNat < l.rate.toNat then { l with cond := BitVec.ofNat 4 cond, rate := rate }
  else l

/-- A link entry as training leaves it: what the training found of it beside. -/
def State.trainedLink (s : State) (found : List LinkFound) (i : Nat) : Link :=
  let l := linkNominal i
  let l := if l.kind = 2 then s.opticalEntry (i - opticalBase) l else l
  let l := match found.find? (fun f => decide (f.index = i)) with
    | some f => { l.found f.cond.toNat f.rate with lat := if l.kind = 0 then 0 else f.lat }
    | none => l
  let l := if l.kind = 3 && !s.up.hostLink then l.missing else l
  if l.regions.any (fun r => decide ((s.region r).power = .lost)) then l.missing else l

/-- The link table, from the entry with an index on. -/
def State.linkTable (s : State) (found : List LinkFound) : Sparse Link :=
  (List.range linkCount).map (fun i => (i, s.trainedLink found i))

/-- The lanes a port works on: of all its pairs, of two, or of one (R348, R349). -/
def State.trainedPort (s : State) (port : Nat) : OptPort :=
  let l := s.goodPairs port
  let n := if l.length = 4 then 4 else if l.length ≤ 1 then l.length else 2
  { lanes := (l.take n).flatMap (fun p => (List.range 16).map (fun j => p * 16 + j)) }

/-- LINK_TRAINING_DONE: the link table is built, and BIST begins. -/
def execLinkTrainingDone (s : State) : Out :=
  if s.up.phase = 4 then
    let t : State := { s with
      links := s.linkTable s.arg.links
      optPorts := (List.range 48).foldl (fun m p => Sparse.set m p (s.trainedPort p)) [] }
    .next ((t.updUp (fun u => { u with phase := 5, hostLink := u.hostLink && !t.linkMissing hostLinkEntry })).noted s)
  else .next s

/-! Dividing the tiles (R13). -/

/-- The default reserve positions of a chiplet path. -/
def reserve : List Nat := [15, 16, 47, 48]

/-- The exposed places of a chiplet, given its healthy ones in path order. -/
def exposedPlaces (healthy : List Nat) : List Nat :=
  let l := healthy.filter (fun i => !reserve.contains i)
  l ++ (reserve.filter healthy.contains).take (60 - l.length)

/-- The roles of a chiplet's tiles: a retired one stays so. -/
def State.divideChiplet (s : State) (r c : Nat) : State :=
  let healthy := (List.range 64).filter (fun i => decide ((s.ptile (tileOfPath r c i)).role ≠ .retired))
  let e := exposedPlaces healthy
  healthy.foldl (fun t i => t.updPTile (tileOfPath r c i) (fun p =>
    { p with role := if e.contains i then .exposed else .spare })) s

/-- A region's tiles are divided, and the monitor image is loaded on every one of them (R298 step 7, R307). -/
def State.divide (s : State) (r : Nat) : State :=
  (regionTiles r).foldl (fun t p => t.updPTile p (fun x => { x with mon := true }))
    (((s.divideChiplet r 0).divideChiplet r 1).updRegion r (fun x => { x with divided := true }))

/-- A tile at bring-up: its NV counters kept, its margin measured, retired if the log says so, lost with its region. -/
def State.freshTile (s : State) (p : Nat) : PTile :=
  { Sparse.get s.health.nv p with
    margin := Config.marginAt p s.time
    role :=
      if s.health.log.any (fun e => match e.2 with
        | some r => decide (r.ptile.toNat = p)
        | none => false) then .retired
      else if (s.region (regionOf p)).power = .lost then .lost else .exposed }

/-- A tile that fails at bring-up is retired with an entry of reason 3: detail 1 for BIST and pattern test, 2 for margin. -/
def State.failAtBist (s : State) (p code : Nat) : State :=
  if (s.ptile p).role = .retired || (s.region (regionOf p)).power = .lost then s
  else
    (s.updPTile p (fun t => { t with role := .retired })).logRetirement
      { time := s.time, ptile := BitVec.ofNat 16 p, reason := 3, detail := BitVec.ofNat 8 code }

/-- The margin test of a tile at bring-up. -/
def State.marginTest (s : State) (p : Nat) : State := if s.marginFails (s.ptile p).margin then s.failAtBist p 2 else s

/-- A region is lost at bring-up, or after its reset: its tiles and its links with it. -/
def State.regionFails (s : State) (r : Nat) : State :=
  ((regionTiles r).foldl (fun t p => t.updPTile p (fun x =>
    { x with role := if x.role = .retired then .retired else .lost }))
    ((s.bankPower r).updRegion r (fun x => { x with power := .lost }))).loseLinks r

/-- What BIST found bad: a tile, or from 2^16 on a region. -/
def State.bistBad (s : State) (b : Nat × Nat) : State :=
  if 2 ^ 16 ≤ b.1 then s.regionFails (b.1 - 2 ^ 16) else s.failAtBist b.1 1

/-- The slot behind the committed entries, as the scan of the retirement log finds it: with a sequence number it is torn,
and erased. When its CRC holds the tile that it names is screened, its pattern test being part of what BIST finds; when it
fails every tile has the margin test (R361). -/
def State.scanTorn (s : State) : State :=
  let l := s.health.torn
  let t := s.updHealth (fun h => { h with torn := [] })
  if l.isEmpty || decide (leField l 0 4 = 2 ^ 32 - 1) then t
  else if crc32c (l.take 0x78) = BitVec.ofNat 32 (leField l 0x78 4) then t.marginTest (leField l 0x10 2)
  else (List.range 6144).foldl State.marginTest t

/-- BIST_DONE: at phase 5 every tile has run BIST and the retirement log has been read (R298 step 6, R361); at phase 6 the
tiles are divided, the monitors are loaded, and the panel is ready (steps 7 and 8). -/
def execBistDone (s : State) : Out :=
  if s.up.phase = 5 then
    let t : State := { s with ptiles := (List.range 6144).map (fun p => (p, s.freshTile p)) }
    .next (((s.arg.bad.foldl State.bistBad t).scanTorn.updUp (fun x => { x with phase := 6 })).noted s)
  else if s.up.phase = 6 then
    let v := (allRegions.filter (fun r => decide ((s.region r).power = .on))).foldl State.divide s
    .next (((v.updUp (fun x => { x with phase := 7 })).raiseVector (0, 3)).noted s)
  else .next s

/-! Package time (R305). -/

/-- A time later than another one. -/
def laterOf (a b : Word) : Word := if a.toNat < b.toNat then b else a

/-- A write of tset: the counter is set once, before ready, and never backward. -/
def State.writeTset (s : State) (v : Word) : State :=
  if s.up.tset || !s.barOpen || s.up.phase = 7 then s
  else ({ s with time := laterOf s.time v } : State).updUp (fun u => { u with tset := true })

/-- TSET_WRITE. -/
def execTsetWrite (s : State) : Out := .next (s.writeTset s.arg.v)

/-- A correction of the counter's rate, at most 200 ppm either way. -/
def clampPpm (v : BitVec 32) : Int := max (-200) (min 200 v.toInt)

/-- The counter is disciplined by a source's time: before ready it is set forward, afterwards only its rate changes. -/
def State.discipline (s : State) : State :=
  if s.up.phase = 7 then s.updUp (fun u => { u with ppm := clampPpm s.arg.rate })
  else { s with time := laterOf s.time s.arg.v }

/-- PTM_REQUEST: with PTM over the host link the source, once every ptmint. -/
def execPtmRequest (s : State) : Out :=
  if s.up.tsrc = 1 && s.hostReaches && s.up.ptmint.toNat ≤ s.since s.up.ptmTime then
    .next (s.discipline.updUp (fun u => { u with ptmTime := s.time }))
  else .next s

/-- IEEE_1588_SYNC_MESSAGE: with IEEE 1588 the source, on optical port 0 (R347). -/
def execIeee1588SyncMessage (s : State) : Out :=
  if s.up.tsrc = 2 && s.linkLive opticalBase then .next s.discipline else .next s

/-! Monitors (R92, R307). -/

/-- The start context of a monitor. -/
def monStart : Proc :=
  { dlthr := 0, g := [(3, mkCap (BitVec.ofNat 32 monLo) (BitVec.ofNat 32 monLo) (BitVec.ofNat 32 storeHi)
            (permL ||| permS ||| permLC ||| permSC ||| permE)),
          (4, mkCap (BitVec.ofNat 32 storeLo) (BitVec.ofNat 32 storeLo) (BitVec.ofNat 32 monLo) (permL ||| permS))] }

/-- A tile's monitor loaded from an image and started at address 0; the fault queue stays as it was, and an append waits no
more. -/
def VTile.loadMonitor (t : VTile) (image : List Byte) : VTile :=
  { t.setProc monitorCtx monStart with
    hfqFull := false
    monCode := Memory.write [] 0 (image.take 65536), monWait := .none, monStop := false, emergency := false }

/-- A reset or a reload is in progress. -/
def State.busyRegion (s : State) : Bool := decide (s.up.rgphase = 1) || decide (s.up.mrphase = 1)

/-- A write of mrel. A go during the reload itself leaves its phase, with err 3 until it ends. -/
def State.writeMrel (s : State) (v : Word) : State :=
  let t := s.updUp (fun u => { u with mrregion := v.setWidth 6 })
  let err : BitVec 8 := if 47 < (v.setWidth 6).toNat then 2 else if s.busyRegion then 3 else 0
  if !s.barOpen then s
  else if !v.getLsbD 8 then t
  else if err = 0 then t.updUp (fun u => { u with mrphase := 1, mrerr := 0, mract := v.setWidth 6 })
  else if s.up.mrphase = 1 then t.updUp (fun u => { u with mrerr := err })
  else (t.updUp (fun u => { u with mrphase := 15, mrerr := err })).raiseVector manage

/-- MONITOR_RELOAD. -/
def execMonitorReload (s : State) : Out := .next (s.writeMrel s.arg.v)

/-- The vtiles on the tiles of a region, active and in the shadow store. -/
def State.vtilesIn (s : State) (r : Nat) : List Nat :=
  (s.vts.filter (fun e => decide (regionOf e.2.ptile = r))).map (fun e => e.1)

/-- MONITOR_RELOAD_DONE: the monitors of the region restart, and its emergency freezes of R91 may be released. -/
def execMonitorReloadDone (s : State) : Out :=
  if s.up.mrphase ≠ 1 then .next s
  else
    let t := (s.vtilesIn s.up.mract.toNat).foldl (fun u k => u.updTile k (fun v =>
      { (v.endWait s.time).loadMonitor s.up.monitor with requests := v.requests.filter (fun q => decide (q ≠ .emergency)
          || (s.region s.up.mract.toNat).emergency) })) s
    let t := (t.parts.map (fun e => e.1)).foldl State.refreshFull t
    .next ((t.updUp (fun u => { u with mrphase := 2, mrerr := 0 })).raiseVector manage)

end Sys2Proof.Machine
end

