-- ==== Sys2Proof/Machine/Loader.lean ====
section
/-! DEFINITION. Network images and binding tables, the checks of a LOAD in their order, and the loader (R15, R16, R62,
R257 to R263, R312). -/

namespace Sys2Proof.Machine

/-! The header (R257). -/

/-- The header of an image. -/
structure ImageHeader where
  flags : Nat := 0
  nv : Nat := 0
  nplace : Nat := 0
  nchan : Nat := 0
  nlat : Nat := 0
  ngrp : Nat := 0
  napt : Nat := 0
  codelen : Nat := 0
  storelen : Nat := 0
  imglen : Nat := 0
  ocode : Nat := 0
  ostore : Nat := 0
  oconst : Nat := 0
  oplace : Nat := 0
  ochan : Nat := 0
  olat : Nat := 0
  oapt : Nat := 0
  deriving DecidableEq, Repr, Inhabited

/-- The header read from an image. -/
def headerOf (l : List Byte) : ImageHeader :=
  let f := leField l
  { flags := f 0x06 2, nv := f 0x08 2, nplace := f 0x0A 2, nchan := f 0x0C 2, nlat := f 0x0E 2, ngrp := f 0x10 2,
    napt := f 0x12 2, codelen := f 0x14 4, storelen := f 0x18 4, imglen := f 0x1C 4, ocode := f 0x20 4,
    ostore := f 0x24 4, oconst := f 0x28 4, oplace := f 0x2C 4, ochan := f 0x30 4, olat := f 0x34 4, oapt := f 0x38 4 }

/-- A number rounded up to a multiple of 16. -/
def up16 (n : Nat) : Nat := (n + 15) / 16 * 16

/-- The constant template's bytes. -/
def templateLen : Nat := 1920

/-- The sections of an image in their order: offset and length. -/
def ImageHeader.sections (h : ImageHeader) : List (Nat × Nat) :=
  [(h.ocode, h.codelen), (h.ostore, h.storelen), (h.oconst, templateLen), (h.oplace, 16 * h.nplace),
   (h.ochan, 16 * h.nchan), (h.olat, up16 (8 * h.nlat) + 4 * h.ngrp), (h.oapt, 16 * h.napt)]

/-- Sections stand in order from a place on, each at a multiple of 16 and inside the image. -/
def sectionsFit (imglen : Nat) : Nat → List (Nat × Nat) → Bool
  | _, [] => true
  | lo, (o, n) :: r => decide (lo ≤ o) && decide (o % 16 = 0) && decide (o + n ≤ imglen) && sectionsFit imglen (o + n) r

/-- Magic, version and crc hold: the crc over imglen bytes with its own field at zero. -/
def headerHolds (l : List Byte) : Bool :=
  let n := (headerOf l).imglen
  decide (leField l 0 4 = 0x4C505257) && decide (leField l 4 2 = 1)
    && decide (crc32c ((l.take 0x3C ++ List.replicate 4 0 ++ l.drop 0x40).take n) = BitVec.ofNat 32 (leField l 0x3C 4))

/-- Lengths, counts and offsets lie in their limits; `n` bytes were read. -/
def ImageHeader.lengthsHold (h : ImageHeader) (n : Nat) : Bool :=
  decide (h.imglen = n) && decide (64 ≤ n) && decide (1 ≤ h.nv) && decide (h.nv ≤ 5760) && decide (h.nlat ≤ 256)
    && decide (h.napt ≤ 256) && decide (h.codelen % 4 = 0) && decide (h.codelen ≤ 0x40000)
    && decide (h.storelen ≤ 0x1BF800) && sectionsFit n 64 h.sections

/-! The entries (R258 to R261). -/

/-- The entries of a section, `n` bytes each. -/
def entriesOf (l : List Byte) (off n count : Nat) : List (List Byte) :=
  (List.range count).map (fun i => (l.drop (off + n * i)).take n)

/-- The placement entries. -/
def ImageHeader.placeEntries (h : ImageHeader) (l : List Byte) : List (List Byte) := entriesOf l h.oplace 16 h.nplace
/-- The channel entries. -/
def ImageHeader.chanEntries (h : ImageHeader) (l : List Byte) : List (List Byte) := entriesOf l h.ochan 16 h.nchan
/-- The latch entries. -/
def ImageHeader.latEntries (h : ImageHeader) (l : List Byte) : List (List Byte) := entriesOf l h.olat 8 h.nlat
/-- The member groups. -/
def ImageHeader.groupEntries (h : ImageHeader) (l : List Byte) : List (List Byte) :=
  entriesOf l (h.olat + up16 (8 * h.nlat)) 4 h.ngrp
/-- The aperture entries. -/
def ImageHeader.aptEntries (h : ImageHeader) (l : List Byte) : List (List Byte) := entriesOf l h.oapt 16 h.napt

/-- A byte of an entry. -/
def byteOf (e : List Byte) (i : Nat) : Nat := leField e i 1

/-- Reserved fields and bits of the header and of every entry are zero. -/
def reservedZero (h : ImageHeader) (l : List Byte) : Bool :=
  decide (h.flags < 8)
    && (h.placeEntries l).all (fun e => decide (byteOf e 2 < 8) && decide (byteOf e 3 < 4))
    && (h.chanEntries l).all (fun e => decide (byteOf e 3 < 8) && decide (byteOf e 7 < 8) && decide (byteOf e 9 < 4)
      && decide (leField e 0xB 5 = 0))
    && (h.groupEntries l).all (fun e => decide (byteOf e 3 = 0))
    && (h.aptEntries l).all (fun e => decide (byteOf e 9 < 4) && decide (leField e 0xA 6 = 0))

/-- A placement entry. -/
def placementOf (e : List Byte) : Placement :=
  { vtile := leField e 0 2, slot := byteOf e 2, prio := BitVec.ofNat 2 (byteOf e 3),
    entry := BitVec.ofNat 18 (leField e 4 4), arg := BitVec.ofNat 64 (leField e 8 8) }

/-- A side of a channel: vtile, end and owner slot. -/
structure Side where
  vtile : Nat := 0
  idx : Nat := 0
  slot : Nat := 0
  deriving DecidableEq, Repr, Inhabited

/-- A channel entry (R259). -/
structure ChanEntry where
  o : Side := {}
  i : Side := {}
  kind : Nat := 0
  xp : Bool := false
  outRemote : Bool := false
  port : Nat := 0
  deriving DecidableEq, Repr, Inhabited

/-- A channel entry from its bytes. -/
def chanOf (e : List Byte) : ChanEntry :=
  { o := { vtile := leField e 0 2, idx := byteOf e 2, slot := byteOf e 3 },
    i := { vtile := leField e 4 2, idx := byteOf e 6, slot := byteOf e 7 },
    kind := byteOf e 8, xp := decide (byteOf e 9 % 2 = 1), outRemote := decide (byteOf e 9 / 2 = 1), port := byteOf e 0xA }

/-- The output side is on this panel. -/
def ChanEntry.outHere (c : ChanEntry) : Bool := !c.xp || !c.outRemote
/-- The input side is on this panel. -/
def ChanEntry.inHere (c : ChanEntry) : Bool := !c.xp || c.outRemote

/-- The sides of a channel on this panel. -/
def ChanEntry.localSides (c : ChanEntry) : List Side :=
  (if c.outHere then [c.o] else []) ++ (if c.inHere then [c.i] else [])

/-- A channel entry keeps the limits of R259. Two that R259 does not state are the model's choice (log entry 122): the vtile of a
local side is below nv, and bit 1 of xp is 0 when bit 0 is. -/
def ChanEntry.holds (c : ChanEntry) (nv : Nat) : Bool :=
  decide (c.kind ≤ 2) && (if c.xp then decide (c.port ≤ 47) else decide (c.port = 0) && !c.outRemote)
    && c.localSides.all (fun x => decide (x.vtile < nv)) && (c.outHere || decide (c.o = {})) && (c.inHere || decide (c.i = {}))

/-- The groups of a latch entry. -/
def latchGroups (groups : List (List Byte)) (e : List Byte) : List (List Byte) :=
  (groups.drop (leField e 4 4)).take (leField e 2 2)

/-- The members of a latch: (vtile, slot) pairs. -/
def latchPairs (groups : List (List Byte)) : List (Nat × Nat) :=
  groups.flatMap (fun g => ((List.range 8).filter (fun q => (byteOf g 2).testBit q)).map (fun q => (leField g 0 2, q)))

/-- A list has no repeats. -/
def allApart {α : Type} [DecidableEq α] : List α → Bool
  | [] => true
  | a :: r => !r.contains a && allApart r

/-- A latch entry keeps the limits of R260 and names no member twice. -/
def latchHolds (h : ImageHeader) (groups : List (List Byte)) (e : List Byte) : Bool :=
  let p := latchPairs (latchGroups groups e)
  decide (leField e 0 2 < h.nv) && decide (leField e 2 2 + leField e 4 4 ≤ h.ngrp) && allApart p
    && p.all (fun m => decide (m.1 < h.nv)) && (decide (leField e 2 2 = 0) || decide (1 ≤ p.length ∧ p.length ≤ 65535))

/-- An aperture entry keeps the limits of R261. -/
def apertureHolds (e : List Byte) : Bool :=
  let size := leField e 0 8
  decide (byteOf e 8 ≤ 1) && (decide (size = 0) || (decide (size % 64 = 0) && decide (64 ≤ size) && decide (size ≤ 2 ^ 40)))

/-- The channels of an image. -/
def channelsOf (h : ImageHeader) (l : List Byte) : List ChanEntry := (h.chanEntries l).map chanOf

/-- The local ends that the channel sides name. -/
def namedEnds (h : ImageHeader) (l : List Byte) : List (Nat × Nat) :=
  (channelsOf h l).flatMap (fun c => c.localSides.map (fun x => (x.vtile, x.idx)))

/-- Field limits hold, and no end and no latch member is named twice. -/
def fieldsHold (h : ImageHeader) (l : List Byte) : Bool :=
  (h.placeEntries l).all (fun e => decide (leField e 4 4 % 4 = 0) && decide (leField e 4 4 < h.codelen))
    && (channelsOf h l).all (fun c => c.holds h.nv)
    && allApart (namedEnds h l)
    && (h.groupEntries l).all (fun g => decide (leField g 0 2 < h.nv))
    && (h.latEntries l).all (latchHolds h (h.groupEntries l))
    && (h.aptEntries l).all apertureHolds

/-- The placements of an image. -/
def placementsOf (h : ImageHeader) (l : List Byte) : List Placement := (h.placeEntries l).map placementOf

/-- The placement and channel-owner checks of R16. A placement on a vtile from nv on breaks a limit of R258 too, whose check
comes earlier; that it is reported as R16 has it is the model's choice (log entry 122). -/
def placesHold (h : ImageHeader) (l : List Byte) : Bool :=
  let p := (placementsOf h l).map (fun e => (e.vtile, e.slot))
  p.all (fun e => decide (e.1 < h.nv)) && allApart p
    && (channelsOf h l).all (fun c => c.localSides.all (fun x => p.contains (x.vtile, x.slot)))

/-! Bindings (R312). -/

/-- A binding. -/
structure Binding where
  kind : Nat := 0
  apt : Nat := 0
  chan : Nat := 0
  place : Nat := 0
  peer : Nat := 0
  spare : Nat := 0
  deriving DecidableEq, Repr, Inhabited

/-- A binding from its bytes. -/
def bindingOf (e : List Byte) : Binding :=
  { kind := byteOf e 0, apt := byteOf e 1, chan := leField e 2 2, place := leField e 8 8, peer := leField e 0x10 8,
    spare := leField e 0x18 8 + leField e 4 4 }

/-- The size of an aperture; 0 for one not declared. -/
def apertureSize (h : ImageHeader) (l : List Byte) (n : Nat) : Nat := leField ((h.aptEntries l).getD n []) 0 8

/-- A binding binds a declared aperture of its kind, or a remote side, and its fields hold. -/
def Binding.holds (b : Binding) (h : ImageHeader) (l : List Byte) : Bool :=
  let size := apertureSize h l b.apt
  let apt := decide (size ≠ 0) && decide (byteOf ((h.aptEntries l).getD b.apt []) 8 + 1 = b.kind)
    && decide (b.place % 64 = 0) && decide (b.place + size ≤ 2 ^ 64)
  decide (b.spare = 0) &&
    (match b.kind with
     | 1 => apt && decide (b.peer = 0)
     | 2 => apt
     | 3 => (((channelsOf h l)[b.chan]?.map (fun c => c.xp)).getD false) && decide (b.place < 2 ^ 24) && decide (b.peer = 0)
     | _ => false)

/-- What a binding binds: an aperture, or from 256 on a channel entry. -/
def Binding.target (b : Binding) : Nat := if b.kind = 3 then 256 + b.chan else b.apt

/-- What is to be bound. -/
def bindTargets (h : ImageHeader) (l : List Byte) : List Nat :=
  (List.range h.napt).filter (fun n => decide (apertureSize h l n ≠ 0))
    ++ (((channelsOf h l).zipIdx).filter (fun c => c.1.xp)).map (fun c => 256 + c.2)

/-- The bindings are complete but for the peers: nothing missing, twice or beside. -/
def bindingsHold (h : ImageHeader) (l : List Byte) (bs : List Binding) : Bool :=
  bs.all (fun b => b.holds h l) && allApart (bs.map Binding.target)
    && (bindTargets h l).all (fun n => (bs.map Binding.target).contains n)

/-- A serial appears as peer in a live optical entry. -/
def State.peerLive (s : State) (serial : Nat) : Bool :=
  (List.range 48).any (fun p => s.linkLive (opticalBase + p)
    && decide ((Sparse.get s.links (opticalBase + p)).peer.toNat = serial))

/-- The ports that the channels of an image name, and those whose entries show the peer of an aperture (log entry 101). -/
def State.namedBy (s : State) (h : ImageHeader) (l : List Byte) (bs : List Binding) : List Nat :=
  ((channelsOf h l).filter (fun c => c.xp)).map (fun c => c.port)
    ++ (bs.filter (fun b => decide (b.kind = 2))).flatMap (fun b =>
      (List.range 48).filter (fun p => decide ((Sparse.get s.links (opticalBase + p)).peer.toNat = b.peer)))

/-- The header flags' demands: the host link, then the ports of the channels and of the peer apertures. -/
def State.flagsRefuse (s : State) (h : ImageHeader) (l : List Byte) (bs : List Binding) : Nat :=
  if h.flags.testBit 1 && !(s.up.hostLink && s.linkLive hostLinkEntry) then 6
  else if h.flags.testBit 2 && !((s.namedBy h l bs).all (fun p => s.linkLive (opticalBase + p))) then 7
  else 0

/-! The checks of a LOAD (R312). -/

/-- What a LOAD reads: its image and its bindings, and which of the two reads failed, 1 the image, 2 the bindings. -/
structure LoadRead where
  image : List Byte := []
  table : List Byte := []
  failed : Nat := 0
  deriving DecidableEq, Repr, Inhabited

/-- The bindings read. -/
def LoadRead.bindings (r : LoadRead) : List Binding := (entriesOf r.table 0 32 (r.table.length / 32)).map bindingOf

/-- Checks 4 to 12 of a LOAD: the first that fails, 0 if none does; `pv` is the partition's vtile count. -/
def State.imageRefuses (s : State) (pv : Nat) (r : LoadRead) : Nat :=
  let l := r.image
  let h := headerOf l
  if r.failed = 1 then 12
  else if !headerHolds l then 1
  else if !h.lengthsHold l.length || !reservedZero h l then 2
  else if !fieldsHold h l then 3
  else if pv < h.nv then 5
  else if !placesHold h l then 4
  else if r.failed = 2 then 12
  else if !bindingsHold h l r.bindings then 8
  else if !r.bindings.all (fun b => decide (b.kind ≠ 2) || s.peerLive b.peer) then 7
  else s.flagsRefuse h l r.bindings

/-- The key of the network of a tenant in a partition; a number that is no tenant has none. -/
def netKey (part tenant : Nat) : Nat := if tenant < 16 then part * 16 + tenant else 2 ^ 20

/-- The active tenant of a partition. -/
def Partition.activeTenant (p : Partition) : Option Nat :=
  if p.act then (if p.v1 then some p.t1.toNat else none) else (if p.v0 then some p.t0.toNat else none)

/-- Why a LOAD of a tenant in a partition is refused; 0 when it is not (R312). -/
def State.loadRefuses (s : State) (q tenant : Nat) (r : LoadRead) : Nat :=
  let p := Sparse.get s.parts q
  if p.state = 2 then 14
  else if p.activeTenant ≠ some tenant then 10
  else if (Sparse.get s.nets (netKey q tenant)).resident then 9
  else s.imageRefuses p.tiles.length r

/-! The loader (R263). -/

/-- The network of an accepted image. -/
def networkOf (q : Nat) (netid : Word) (r : LoadRead) : Network :=
  let l := r.image
  let h := headerOf l
  { netid := netid
    nv := h.nv
    receipt := h.flags.testBit 0
    places := placementsOf h l
    latches := ((h.latEntries l).zipIdx).foldl (fun m e =>
      Sparse.set m e.2 { home := leField e.1 0 2, members := (latchGroups (h.groupEntries l) e.1).map (fun g =>
        (leField g 0 2, BitVec.ofNat 8 (byteOf g 2))) }) []
    apertures := r.bindings.foldl (fun m b =>
      let e := (h.aptEntries l).getD b.apt []
      if b.kind = 3 then m
      else Sparse.set m b.apt {
        size := leField e 0 8, peer := decide (b.kind = 2), rd := (byteOf e 9).testBit 0, wr := (byteOf e 9).testBit 1,
        base := b.place, serial := BitVec.ofNat 64 b.peer }) []
    loaded := true
    resident := true
    queue := q }

/-- An end of a channel as the loader builds it: IDLE, owned, and its peer. -/
def endOf (x : Side) (peer : Nat × Nat) (c : ChanEntry) (input : Bool) : End :=
  { st := .idle, owner := BitVec.ofNat 3 x.slot, pvt := BitVec.ofNat 16 peer.1, pend := BitVec.ofNat 8 peer.2, ov := true,
    input := input, kind := BitVec.ofNat 2 c.kind, port := BitVec.ofNat 6 c.port, xp := c.xp }

/-- The peer of a remote side, by its binding: vtile and end. -/
def remotePeer (bs : List Binding) (n : Nat) : Nat × Nat :=
  match bs.find? (fun b => decide (b.kind = 3) && decide (b.chan = n)) with
  | some b => (b.place % 65536, b.place / 65536 % 256)
  | none => (0, 0)

/-- The end table of a vtile with the sides of one channel entry. -/
def chanEnds (bs : List Binding) (v : Nat) (m : Sparse End) (c : ChanEntry × Nat) : Sparse End :=
  let far := remotePeer bs c.2
  let o := if c.1.inHere then (c.1.i.vtile, c.1.i.idx) else far
  let i := if c.1.outHere then (c.1.o.vtile, c.1.o.idx) else far
  let m := if c.1.outHere && c.1.o.vtile = v then Sparse.set m c.1.o.idx (endOf c.1.o o c.1 false) else m
  if c.1.inHere && c.1.i.vtile = v then Sparse.set m c.1.i.idx (endOf c.1.i i c.1 true) else m

/-- The end table of a vtile. -/
def endTable (r : LoadRead) (v : Nat) : Sparse End :=
  ((channelsOf (headerOf r.image) r.image).zipIdx).foldl (chanEnds r.bindings v) []

/-- The home state of a declared latch: its expected arrivals (R52, R260). -/
def LatchDecl.start (d : LatchDecl) : LatchHome :=
  { e := BitVec.ofNat 16 ((d.members.map (fun g => ((List.range 8).filter g.2.getLsbD).length)).foldl (· + ·) 0) }

/-- The latch homes of a vtile. -/
def homesAt (w : Network) (v : Nat) : Sparse LatchHome :=
  w.latches.foldl (fun m e => if e.2.home = v ∧ e.2.members ≠ [] then Sparse.set m e.1 e.2.start else m) []

/-- The latch records of a vtile: one for every latch with a member there (R52, R263). -/
def recordsAt (w : Network) (v : Nat) : Sparse LatchRec :=
  w.latches.foldl (fun m e =>
    if e.2.members.any (fun g => decide (g.1 = v) && decide (g.2 ≠ 0)) then Sparse.set m e.1 { hosted := some true } else m) []

/-- The message of the receipt in force for a tenant of a partition (R326). -/
def State.receiptInForce (s : State) (q tenant : Nat) : Option Receipt :=
  let p := Sparse.get s.parts q
  let n := if p.slotOf tenant = some 1 then p.receipt1 else p.receipt0
  s.receipts.find? (fun r => decide (r.rseq = n))

/-- The bytes of a receipt's digest. -/
def Receipt.digest (r : Receipt) : List Byte := (r.message.drop 0x28).take 32

/-- The constant words 0 to 11 of a vtile (R62); word 4 is written at its start. -/
def State.constWords (s : State) (q tenant : Nat) (w : Network) (v ptile : Nat) : List Nat :=
  let p := Sparse.get s.parts q
  let d := if w.receipt then ((s.receiptInForce q tenant).map Receipt.digest).getD [] else []
  [w.nv * 65536 + v, p.tiles.length, w.netid.toNat, tenant, 0,
   regionPath.getD (regionOf ptile) 0 * 256 + regionOf ptile,
   if p.dual then 0x1E000000 else 0x3C000000,
   (if w.receipt then 2 else 0) + (if p.dual then 1 else 0)]
    ++ (List.range 4).map (fun j => leField d (8 * j) 8)

/-- The constant window of a vtile. -/
def State.constsFor (s : State) (q tenant : Nat) (w : Network) (l : List Byte) (v ptile : Nat) : Sparse Word :=
  let t := (List.range 240).map (fun i => leField l ((headerOf l).oconst + 8 * i) 8)
  ((s.constWords q tenant w v ptile ++ List.replicate 4 0 ++ t).zipIdx).foldl
    (fun (m : Sparse Word) (e : Nat × Nat) => Sparse.set m e.2 (BitVec.ofNat 64 e.1)) []

/-- What the loader writes on a vtile (R263); the monitor's context and area stay. -/
def State.loadImage (s : State) (q tenant : Nat) (w : Network) (r : LoadRead) (t : VTile) : Image :=
  let l := r.image
  let h := headerOf l
  let v := t.num
  { procs := Sparse.set [] monitorCtx (t.proc monitorCtx)
    ends := endTable r v
    homes := homesAt w v
    recs := recordsAt w v
    spawnCtr := BitVec.ofNat 64 (2 ^ 32 * v + 65536)
    store := Memory.write [] storeLo ((l.drop h.ostore).take h.storelen)
      ++ t.im.store.filter (fun c => decide (monLo ≤ c.1))
    tags := t.im.tags.filter (fun c => decide (monLo / 16 ≤ c.1))
    code := Memory.write [] 0 ((l.drop h.ocode).take h.codelen)
    consts := s.constsFor q tenant w l v t.ptile }

/-- A vtile loaded: with the image goes a committed checkpoint, and the log starts anew. -/
def State.loadVTile (s : State) (q tenant : Nat) (w : Network) (r : LoadRead) (t : VTile) : VTile :=
  let u := { t with im := s.loadImage q tenant w r t }
  { u with
    ck := some (u.checkpoint s.time), staged := none, unmerged := false, marked := [], snaps := [], stagedSnaps := []
    log := [], logMark := 0, tick := 0, logBytes := 0, starved := false, replay := none, diverged := []
    ckPending := false, ckDue := false, errPending := none, forwarded := [], answers := [] }

/-- Every vtile of a network is loaded (R263). -/
def State.loadNet (s : State) (q tenant : Nat) (netid : Word) (r : LoadRead) : State :=
  let w := networkOf q netid r
  let t := (List.range w.nv).foldl (fun u v =>
    u.updTile (vtKey q tenant v) (fun x => s.loadVTile q tenant w r x)) s
  { t with nets := Sparse.set t.nets (netKey q tenant) w }

end Sys2Proof.Machine
end

