-- ==== Sys2Proof/Machine/Tick.lean ====
section
/-! DEFINITION. The end of a tile's tc: ageing, blocked time, what happens one per tc, the tick, and the log presented in
a replay (R25, R31, R58, R72, R87, R332). -/

namespace Sys2Proof.Machine

/-- The monitor held a pipe in the present tc. -/
def VTile.monHeld (t : VTile) (a : Bool) : Bool :=
  decide ((if a then t.issuedA else t.issuedB) = some monitorCtx)

/-- The ageing counter moves on (R31). -/
def Proc.grow (p : Proc) : Proc :=
  { p with ageing := if p.ageing = BitVec.allOnes 16 then p.ageing else p.ageing + 1 }

/-- A process whose counter stands at 256 or more at the start of a tc has effective priority 4 in it (R31). -/
def Proc.setAged (p : Proc) : Proc := { p with aged := decide (256 ≤ p.ageing.toNat) }

/-- A slot was a candidate in the tc, did not issue, and the monitor did not hold its pipe (R31). -/
def VTile.ages (t : VTile) (q : Nat) : Bool := !t.hasIssued q && !t.isFresh q && !t.monHeld (t.onPipe q true)

/-- A slot at the end of a tc: a candidate that did not issue ages, a blocked process counts its blocked time, and the
counter of the next tc's start decides who is aged in it (R22, R31). -/
def VTile.ageSlot (t : VTile) (q : Nat) : VTile :=
  let p := t.proc q
  match p.st with
  | .ready => t.setProc q (if t.ages q then p.grow.setAged else p.setAged)
  | .blocked => t.setProc q { p with btime := if p.btime = BitVec.allOnes 32 then p.btime else p.btime + 1 }.setAged
  | .empty => t
  | _ => t.setProc q p.setAged

/-- AGEING_THRESHOLD: a candidate's counter has reached 256. -/
def execAgeingThreshold (s : State) : Out :=
  .next (s.updProcAt s.arg.k s.arg.q (fun p =>
    if p.st = .ready && 256 ≤ p.ageing.toNat then { p with aged := true } else p))

/-- POOL_ENTRY_TAKES_SLOT (R25). -/
def execPoolEntryTakesSlot (s : State) : Out := .next (s.poolTakes s.arg.k)

/-- A tile's tc is over: the issues of the tc are forgotten, and its tick is counted unless it is frozen (R332). -/
def VTile.nextTick (t : VTile) : VTile :=
  { t with issuedA := none, issuedB := none, ahead := none, fresh := 0, tick := if t.freeze.isNone then t.tick + 1 else t.tick }

/-- One waiter of the resolved pages goes on; under a freeze, whose tc a replay does not count, that is logged. -/
def State.releaseTick (s : State) (k : Nat) : State :=
  let t := s.tile k
  if t.releases.isEmpty || (t.freeze.isSome && t.replay.isSome) then s
  else
    (if t.freeze.isSome then s.log k { event := some (.pageWaiterRelease, { k := k }) } else s).updTile k
      (fun t => t.releaseOne s.time)

/-- The deferred record of the tc; a replay writes none. -/
def State.recordTick (s : State) (k : Nat) : State :=
  if (s.tile k).replay.isSome then s else s.updTile k (fun t => t.writeDeferred s.time)

/-- The probes of a tile that start in the tc. -/
def State.probeTick (s : State) (k : Nat) : State := (List.range 8).foldl (fun t q => t.probeStart k q) s

/-- A tile in replay at the start of a tick: its log is presented, or it leaves replay. -/
def State.replayTick (s : State) (k : Nat) : State :=
  if (s.tile k).replay.isNone then s
  else
    let t := (s.replayNow k).reportDivergences k
    if (t.tile k).replayOver then t.endReplay k else t

/-- The end of a tile's tc. -/
def State.tcEnd (s : State) (k : Nat) : State :=
  if (s.tile k).lost || (s.tile k).failed then s
  else if (s.tile k).errPending.isSome then s.errTick k
  else
    let t := s.updTile k (fun t => ((List.range 8).foldl VTile.ageSlot t).nextTick)
    (((((t.releaseTick k).recordTick k).poolFill k).probeTick k).roomTick k).replayTick k

/-- Where the frames of HBM begin among the places that agents outside the panel write (log entry 107). -/
def framePlace : Nat := 2 ^ 160

/-- A place of HBM that the driver writes through the management window: in a frame of a well (R288, R316). -/
def isWellFrame (a : Nat) : Bool := decide (a < 48 * 2 ^ 37) && decide (a / 65536 % 16384 < wellPages)

/-- A byte that an agent outside the panel has written: the driver to a frame of HBM, any other one to host or peer memory. -/
def State.outsideWrite (s : State) (e : Nat × Byte) : State :=
  if framePlace ≤ e.1 then
    if isWellFrame (e.1 - framePlace) then { s with hbm := Sparse.set s.hbm (e.1 - framePlace) e.2 } else s
  else s.writeFar e.1 [e.2]

/-- What agents outside the panel have written meanwhile (log entry 1). -/
def State.outsideWrites (s : State) (l : List (Nat × Byte)) : State := l.foldl State.outsideWrite s

/-- The state in which an event takes effect at a turn of the fabric: package time has moved on and deadlines with it, the input is taken, what
others have written outside the panel stands there, and the event's operands are at hand. -/
def State.startEvent (s : State) (a : EvArgs) : State :=
  { State.outsideWrites { s.fabricTurn.expireAll with inputs := s.inputs.drop 1 } a.outside with arg := a }

/-- A turn of the fabric at which no event comes about. -/
def State.idleTurn (s : State) : State := { s.fabricTurn.expireAll with inputs := s.inputs.drop 1 }

/-- The state in which a context of a tile executes what it fetched: the context is the executing one, the issue is
booked, the monitor's in the log, and the turn has passed on. -/
def State.startIssue (s : State) (k q : Nat) (a : Bool) : State :=
  let t := if q = monitorCtx && (s.tile k).freeze.isNone then s.log k { mon := some (.issue a) } else s
  { (t.updTile k (fun t => t.issued a q)).pass with cur := { vt := k, who := q } }

/-- A pipe of a tile on which nobody issues; a replay presents what the monitor did there. -/
def State.idleIssue (s : State) (k : Nat) (a : Bool) : State :=
  (if (s.tile k).replayHolds a then s.replayIssue k else s).pass

end Sys2Proof.Machine
end

