-- ==== Sys2Proof/Machine/Queues.lean ====
section
/-! DEFINITION. The launch queues: the doorbell, the beginning of commands, LOAD, START, STOP and WAIT-FOR, completion
records, and the function-level resets (R17, R306, R308 to R312). -/

namespace Sys2Proof.Machine

/-! Fetching and beginning (R308, R310, R351). -/

/-- The bytes of command n of a queue in host memory. -/
def State.commandBytes (s : State) (q n : Nat) : List Byte :=
  let b := Sparse.get s.queues q
  Memory.read s.hostMem (b.lqbase.toNat + 64 * (n % 2 ^ b.qsize.toNat)) 64

/-- An enabled queue fetches the commands up to its tail; none does while the blade is being evicted. -/
def State.fetchQueue (s : State) (q : Nat) : State :=
  let b := Sparse.get s.queues q
  if b.en && s.up.hostLink && !s.evicting then
    s.updQueue q (fun b => { b with
      fetched := b.fetched ++ (List.range (b.tail - b.lqhd).toNat).map (fun i => s.commandBytes q (b.lqhd.toNat + i))
      lqhd := b.tail })
  else s

/-- DOORBELL_WRITE: a write to a queue's doorbell sets the tail, unless too many commands would be unfetched (R308). -/
def execDoorbellWrite (s : State) : Out :=
  let q := s.arg.q
  let tail : BitVec 32 := s.arg.v.setWidth 32
  let b := Sparse.get s.queues q
  if 48 ≤ q || !s.barOpen || 2 ^ b.qsize.toNat < (tail - b.lqhd).toNat then .next s
  else .next ((s.updQueue q (fun b => { b with tail := tail })).fetchQueue q)

/-- The entry of the command that may begin: the one before it has been accepted. -/
def State.nextCommand (s : State) (q : Nat) : Option (List Byte) :=
  let b := Sparse.get s.queues q
  if b.en && s.up.hostLink && b.begun.all (fun c => c.accepted) then b.fetched.head? else none

/-- The words a0, a1 and a2 of a command entry (R309). -/
def cmdA (e : List Byte) (i : Nat) : Nat := leField e (8 + 8 * i) 8

/-- The command at the head of a queue begins, if its op is the given one: its tag is known from now on. During an
eviction it is refused (R351). -/
def State.beginCommand (s : State) (q op : Nat) (f : State → Command → List Byte → State) : State :=
  match s.nextCommand q with
  | none => s
  | some e =>
    if byteOf e 0 ≠ op then s
    else
      let c : Command := {
        idx := (Sparse.get s.queues q).tags.length, op := op, tenant := byteOf e 1, tag := BitVec.ofNat 32 (leField e 4 4) }
      let t := s.updQueue q (fun b => { b with
        fetched := b.fetched.drop 1
        tags := b.tags ++ [(c.tag, false)]
        begun := b.begun ++ [c] })
      if s.evicting then t.completeCmd q c doneRefused 14 0 else f t c e

/-- A begun command of a queue changed. -/
def State.updCommand (s : State) (q : Nat) (c : Command) (f : Command → Command) : State :=
  s.updQueue q (fun b => { b with begun := b.begun.map (fun d => if d.idx = c.idx then f d else d) })

/-! LOAD (R309, R311, R312). -/

/-- What a LOAD reads, through its tenant's function; `failed` says which read fails. -/
def State.loadRead (s : State) (tenant : Nat) (e : List Byte) (failed : Nat) : LoadRead :=
  let a := cmdA e 0
  let n := cmdA e 1 % 2 ^ 32
  let m := 32 * (cmdA e 1 / 2 ^ 32 % 65536)
  { image := Memory.read s.hostMem (tenant * 2 ^ 64 + a) n
    table := Memory.read s.hostMem (tenant * 2 ^ 64 + cmdA e 2) m
    failed := if 2 ^ 64 < a + n then 1 else if failed = 0 && 2 ^ 64 < cmdA e 2 + m then 2 else failed }

/-- The netid of the next LOAD that completes OK (R311). -/
def State.nextNetid (s : State) (q tenant : Nat) : Word :=
  BitVec.ofNat 64 (q * 2 ^ 56 + tenant * 2 ^ 48 + s.netCount + 1)

/-- A LOAD makes its checks, and loads or changes nothing. -/
def State.doLoad (s : State) (q : Nat) (c : Command) (e : List Byte) : State :=
  let r := s.loadRead c.tenant e s.arg.v.toNat
  let why := s.loadRefuses q c.tenant r
  if why ≠ 0 then s.completeCmd q c doneRefused why 0
  else
    let netid := s.nextNetid q c.tenant
    let t : State := { s.loadNet q c.tenant netid r with netCount := s.netCount + 1 }
    (t.updQueue q (fun b => { b with loads := b.loads ++ [(netid, c.tenant)] })).completeCmd q c doneOk 0 netid

/-- LOAD. -/
def execLoad (s : State) : Out := .next (s.beginCommand s.arg.q opLoad (fun t c e => t.doLoad s.arg.q c e))

/-! START (R17, R309, R326). -/

/-- The receipt that a network demands is signed, or it demands none. -/
def State.receiptReady (s : State) (n : Nat) : Bool :=
  !(Sparse.get s.nets n).receipt || ((s.receiptInForce (n / 16) (n % 16)).map (fun r => r.signed)).getD false

/-- A START of the network has begun and not completed. -/
def State.startPending (s : State) (n : Nat) : Option Command :=
  let w := Sparse.get s.nets n
  (Sparse.get s.queues w.queue).begun.find? (fun c => decide (c.op = opStart) && decide (c.netid = w.netid))

/-- A network whose START has begun may start its vtiles once its receipt is signed. -/
def State.tryStart (s : State) (n : Nat) : State :=
  let w := Sparse.get s.nets n
  if w.resident && !w.started && (s.startPending n).isSome && s.receiptReady n then
    s.updNet n (fun w => { w with started := true })
  else s

/-- The netid of a tenant's last LOAD in a queue that completed OK; 0 for none. -/
def QBlock.lastLoad (b : QBlock) (tenant : Nat) : Word :=
  ((b.loads.reverse.find? (fun l => decide (l.2 = tenant))).map (fun l => l.1)).getD 0

/-- A START names a network loaded through its queue and not yet started, of the active tenant. -/
def State.doStart (s : State) (q : Nat) (c : Command) (e : List Byte) : State :=
  let n := netKey q c.tenant
  let w := Sparse.get s.nets n
  let want := if cmdA e 0 = 0 then (Sparse.get s.queues q).lastLoad c.tenant else BitVec.ofNat 64 (cmdA e 0)
  if !w.resident || w.started || w.netid ≠ want then s.completeCmd q c doneRefused 11 0
  else if (Sparse.get s.parts q).activeTenant ≠ some c.tenant then s.completeCmd q c doneRefused 10 0
  else (s.updCommand q c (fun d => { d with netid := want })).tryStart n

/-- START. -/
def execStart (s : State) : Out := .next (s.beginCommand s.arg.q opStart (fun t c e => t.doStart s.arg.q c e))

/-- A vtile of a network has started; with the last one the START is accepted (R309). -/
def State.vtileStarted (s : State) (k : Nat) : State :=
  let n := k / 65536
  let t := s.updNet n (fun w => { w with running := w.running ++ [k % 65536] })
  let w := Sparse.get t.nets n
  let u := if w.nv ≤ w.running.length then
      match t.startPending n with
      | some c => t.updCommand w.queue c (fun d => { d with accepted := true })
      | none => t
    else t
  u.finish n

/-- A vtile of a network may start: it has been loaded, its network has no receipt to wait for, and its tile runs. -/
def State.mayStart (s : State) (k : Nat) : Bool :=
  let w := Sparse.get s.nets (k / 65536)
  w.resident && w.started && !w.stopping && decide (k % 65536 < w.nv) && !w.running.contains (k % 65536)

/-- NETWORK_START: the initial processes of a vtile become READY together (R17). A lost vtile starts none. -/
def execNetworkStart (s : State) : Out :=
  let k := s.arg.k
  let t := s.tile k
  if !s.mayStart k then .next s
  else if t.lost then .next (s.vtileStarted k)
  else if s.active k && t.freeze.isNone && t.replay.isNone && t.runs then .next ((s.startVTile k).vtileStarted k)
  else .next s

/-! STOP (R309, R310). -/

/-- Every vtile of a network is stopped. -/
def State.stopTiles (s : State) (n : Nat) : State :=
  (List.range (Sparse.get s.nets n).nv).foldl (fun t v =>
    let k := n * 65536 + v
    if (t.tile k).lost then t else t.stopVTile k) s

/-- The network of a tenant is stopped: one never started is discarded; one that runs has its processes killed, and its
START completes when it is over. -/
def State.stopNet (s : State) (n : Nat) : State :=
  let w := Sparse.get s.nets n
  if !w.resident then s
  else if w.started then
    let t := ((s.updNet n (fun w => { w with stopping := true })).stopTiles n).finish n
    t.updQueue w.queue QBlock.followAll
  else
    let t := s.updNet n (fun w => { w with resident := false })
    match s.startPending n with
    | some c => t.completeCmd w.queue c doneStopped 0 s.time
    | none => t

/-- A STOP: of the network it names, if it is resident. -/
def State.doStop (s : State) (q : Nat) (c : Command) (e : List Byte) : State :=
  let n := netKey q c.tenant
  let w := Sparse.get s.nets n
  let a := BitVec.ofNat 64 (cmdA e 0)
  if a ≠ 0 && !(Sparse.get s.queues q).loads.contains (a, c.tenant) then s.completeCmd q c doneRefused 11 0
  else if !w.resident || (a ≠ 0 && w.netid ≠ a) then s.completeCmd q c doneOk 0 0
  else
    ((s.updCommand q c (fun d => { d with accepted := true, netid := w.netid })).stopNet n).updQueue q QBlock.followAll

/-- STOP. -/
def execStop (s : State) : Out := .next (s.beginCommand s.arg.q opStop (fun t c e => t.doStop s.arg.q c e))

/-! WAIT-FOR (R309). -/

/-- The place of the most recent command before a place that has a tag. -/
def QBlock.lastTag (b : QBlock) (i : Nat) (tag : BitVec 32) : Option Nat :=
  ((List.range i).filter (fun j => decide ((b.tags[j]?.map (fun t => t.1)) = some tag))).getLast?

/-- A WAIT-FOR completes with the command that it names. -/
def State.doWaitFor (s : State) (q : Nat) (c : Command) (e : List Byte) : State :=
  match (Sparse.get s.queues q).lastTag c.idx (BitVec.ofNat 32 (cmdA e 0)) with
  | none => s.completeCmd q c doneRefused 13 0
  | some i => (s.updCommand q c (fun d => { d with target := i })).updQueue q QBlock.followAll

/-- WAIT_FOR. -/
def execWaitFor (s : State) : Out := .next (s.beginCommand s.arg.q opWaitFor (fun t c e => t.doWaitFor s.arg.q c e))

/-! Completion records (R308, R311). -/

/-- The 16 B of a completion record. -/
def Completion.bytes (c : Completion) : List Byte :=
  toBytes 4 c.tag.toNat ++ toBytes 1 c.op ++ toBytes 1 c.status ++ toBytes 2 c.reason ++ toBytes 8 c.data.toNat

/-- COMPLETION_RECORD_WRITE: the oldest record that waits is written while the ring has room, and vector 0 raised. -/
def execCompletionRecordWrite (s : State) : Out :=
  let q := s.arg.q
  let b := Sparse.get s.queues q
  match b.done with
  | [] => .next s
  | c :: r =>
    if s.up.hostLink && (b.cqtl - b.cqhd).toNat < 2 ^ b.qsize.toNat then
      let a := b.cqbase.toNat + 16 * (b.cqtl.toNat % 2 ^ b.qsize.toNat)
      let t : State := { s with hostMem := Memory.write s.hostMem a c.bytes }
      .next ((t.updQueue q (fun b => { b with done := r, cqtl := b.cqtl + 1 })).raiseVector (0, 0))
    else .next s

/-! Function-level resets (R306). -/

/-- A record in its place among records in ring order. -/
def Completion.insert (c : Completion) : List Completion → List Completion
  | [] => [c]
  | d :: r => if c.idx < d.idx then c :: d :: r else d :: c.insert r

/-- The records that one event has added to a queue's stand in ring order (R310). -/
def QBlock.inRingOrder (b old : QBlock) : QBlock :=
  let n := old.done.length
  { b with done := b.done.take n ++ (b.done.drop n).foldl (fun l c => c.insert l) [] }

/-- The records that one event has added to any queue stand in ring order. -/
def State.inRingOrder (s old : State) : State :=
  { s with queues := (s.queues.map (fun e => e.1)).foldl (fun m q =>
      Sparse.upd m q (fun b => b.inRingOrder (Sparse.get old.queues q))) s.queues }

/-- The networks of the panel, by key. -/
def State.netKeys (s : State) : List Nat := s.nets.map (fun e => e.1)

/-- A queue disabled by a reset: commands not begun are forgotten; the records of the others still wait for room. -/
def QBlock.disable (b : QBlock) : QBlock := { b with en := false, fetched := [], tail := b.lqhd }

/-- FLR_PF: every network is stopped, and every queue is disabled; the function is in D0, its virtual functions disabled
(log entry 102). Every other register keeps its value, which is the model's choice (log entry 125). -/
def execFlrPf (s : State) : Out :=
  if !s.hostReaches then .next s
  else
    let t := (s.netKeys.foldl State.stopNet s).inRingOrder s
    .next { t with
      queues := (List.range 48).foldl (fun m q => Sparse.upd m q QBlock.disable) t.queues
      up := { t.up with vfs := false, d3 := false } }

/-- A tenant's host apertures are bound no more. -/
def Network.unbindHost (w : Network) : Network := { w with apertures := w.apertures.filter (fun e => e.2.peer) }

/-- FLR_VF: the networks of tenant n are stopped, its host apertures are unbound, and its copies through the host port
end. -/
def execFlrVf (s : State) : Out :=
  let n := s.arg.n
  if !s.hostReaches || !s.up.vfs || n = 0 || 15 < n then .next s
  else
    let mine := s.netKeys.filter (fun k => decide (k % 16 = n))
    let t := (mine.foldl State.stopNet s).inRingOrder s
    let u := (t.vts.filter (fun v => decide (v.1 / 65536 % 16 = n))).foldl (fun u v => u.endHostCopies v.1) t
    .next (mine.foldl (fun u k => u.updNet k Network.unbindHost) u)

end Sys2Proof.Machine
end

