-- ==== Sys2Proof/Machine/Tenancy.lean ====
section
/-! DEFINITION. Partitions and their changes, the tenant switch, eviction of a tenant, scrubs and their receipts, and
what a tile does once it is quiescent (R14, R97, R100, R101, R315 to R326). -/

namespace Sys2Proof.Machine

/-! Partitions and their vtiles (R14, R315, R316). -/

/-- A partition. -/
def State.part (s : State) (q : Nat) : Partition := Sparse.get s.parts q

/-- The state with one partition's record changed. -/
def State.updPart (s : State) (q : Nat) (f : Partition → Partition) : State := { s with parts := Sparse.upd s.parts q f }

/-- The regions of a set of path indices, by record index, in ascending path order. -/
def regionsOf (m : BitVec 48) : List Nat := ((List.range 48).filter m.getLsbD).map regionAt

/-- The number of a partition of a set of regions: the path index of the first (R308). -/
def firstIndex (m : BitVec 48) : Nat := ((List.range 48).find? m.getLsbD).getD 0

/-- The physical tiles of the vtiles of a set of regions, in vtile order (R14). -/
def State.vtileOrder (s : State) (m : BitVec 48) : List Nat :=
  (regionsOf m).flatMap (fun r => s.withRole r 0 .exposed ++ s.withRole r 1 .exposed)

/-- The keys of the vtiles of a tenant in a partition. -/
def State.keysOf (s : State) (q tenant : Nat) : List Nat :=
  (s.vts.map (fun e => e.1)).filter (fun k => decide (k / 65536 = q * 16 + tenant))

/-- The keys of the vtiles of a partition. -/
def State.keysIn (s : State) (q : Nat) : List Nat :=
  (s.vts.map (fun e => e.1)).filter (fun k => decide (k / 65536 / 16 = q))

/-- The keys of the active vtiles of a partition. -/
def State.activeKeys (s : State) (q : Nat) : List Nat := (s.keysIn q).filter s.active

/-- The monitor of a tile, with its fault queue and its words, as another vtile had it (R92). -/
def VTile.takeMonitor (v old : VTile) : VTile :=
  { v.setProc monitorCtx (old.proc monitorCtx) with
    monCode := old.monCode, monWait := old.monWait, monStop := old.monStop, reqReg := old.reqReg, fqtl := old.fqtl
    fqhd := old.fqhd, recNum := old.recNum, recTimes := old.recTimes, wdl := old.wdl, ptwst := old.ptwst
    ptsel := old.ptsel, hfqBad := old.hfqBad, hfqFull := old.hfqFull, emergency := old.emergency }

/-- The requests of a tile that concern it whoever its tenant is. -/
def VTile.tileRequests (t : VTile) : List FreezeKind :=
  t.requests.filter (fun r => decide (r = .emergency) || decide (r = .rotation) || decide (r = .blade))

/-- A vtile with a zero image on a tile; the tile's monitor goes on, or starts if its image is loaded: the model gives a tile
without a vtile no steps (log entry 59). -/
def State.freshVTile (s : State) (q tenant num p : Nat) : VTile :=
  let v : VTile := { part := q, tenant := tenant, num := num, ptile := p }
  match s.activeOn p with
  | some k => { v.takeMonitor (s.tile k) with requests := (s.tile k).tileRequests }
  | none =>
    { (if (s.ptile p).mon then v.loadMonitor s.up.monitor else v) with
      requests := if (s.region (regionOf p)).emergency then [.emergency] else [] }

/-- A tenant's vtiles appear in a partition with zero images. -/
def State.addTenant (s : State) (q tenant : Nat) : State :=
  ((s.part q).tiles.zipIdx).foldl (fun t e =>
    t.setTile (vtKey q tenant e.2) (s.freshVTile q tenant e.2 e.1)) s

/-- Vtiles go, with the messages to and from them, and with the translation window's writes to their tables (R313); appends
of theirs wait no more. -/
def State.removeVTiles (s : State) (gone : List Nat) : State :=
  let t : State := { s with
    vts := s.vts.filter (fun e => !gone.contains e.1)
    msgs := s.msgs.filter (fun m => !gone.contains m.src.vt && !gone.contains m.dst.vt)
    farOut := s.farOut.filterMap (fun c => c.without (fun m => gone.contains m.src.vt))
    ten := { s.ten with
      twbusy := s.ten.twbusy.filter (fun w => !gone.contains w.1)
      twwaiting := s.ten.twwaiting.filter (fun w => !gone.contains w.vt) } }
  (t.parts.map (fun e => e.1)).foldl State.refreshFull (t.windowDrain (t.ten.twwaiting.length + 1))

/-- Vtiles go; tiles to be retired that hold none any more are retired. -/
def State.dropVTiles (s : State) (gone : List Nat) : State := (s.removeVTiles gone).retireEmpty

/-! Scrubs (R323). -/

/-- The causes of a receipt (R324). -/
def causeForm : Nat := 1
/-- A switch. -/
def causeSwitch : Nat := 2
/-- An eviction. -/
def causeEvict : Nat := 3
/-- An admission. -/
def causeAdmit : Nat := 4
/-- A dissolution. -/
def causeDissolve : Nat := 5

/-- The freeze under which a scrub finds the active vtiles: that of a switch, or of an eviction of the active tenant. -/
def State.scrubFreeze (s : State) (sc : Scrub) : Option FreezeKind :=
  if sc.cause = causeSwitch then some .switch
  else if sc.cause = causeEvict && decide ((s.part sc.part).activeTenant = sc.outgoing.map BitVec.toNat) then some .evict
  else none

/-- Every fault record of a tile has its disposition, no process waits for one and no answer is awaited, and the monitor
rests (R101, R321). -/
def VTile.disposed (t : VTile) : Bool :=
  decide (t.held = 0) && t.fqwait.isEmpty && t.forwarded.isEmpty && t.answers.isEmpty
    && (decide (t.monWait = .none) || decide (t.monWait = .idle))

/-- A vtile under a freeze of a kind is ready to be scrubbed. -/
def VTile.scrubReady (t : VTile) (k : FreezeKind) : Bool :=
  t.quiescent && decide ((t.freeze.map (fun f => f.kind)) = some k) && (decide (k ≠ .switch) || t.disposed)

/-- A tile takes part in a scrub: it is exposed or a spare. A lost one does not, also where its region is up: the model's choice
(log entry 126). -/
def State.scrubbable (s : State) (p : Nat) : Bool :=
  decide ((s.ptile p).role = .exposed) || decide ((s.ptile p).role = .spare)

/-- The active vtile of a tile whose freeze a scrub needs. -/
def State.scrubHolds (s : State) (sc : Scrub) (p : Nat) : Option Nat :=
  if (s.scrubFreeze sc).isSome then s.activeOn p else none

/-- A step has moved the vtiles of a tile, or to it, and the routers have not the new map yet. -/
def State.moving (s : State) (p : Nat) : Bool :=
  s.rel.rotations.any (fun e => match e.2 with
    | some x => decide (x.stage = .mapping) && (decide (x.from_ = p) || decide (x.dest = p))
    | none => false)

/-- A tile on which no vtile runs has no emergency and no move to wait for (R100, R321). -/
def State.tileFree (s : State) (p : Nat) : Bool := !(s.region (regionOf p)).emergency && !s.moving p

/-- A tile's scrub may end now. -/
def State.mayScrub (s : State) (sc : Scrub) (p : Nat) : Bool :=
  s.scrubbable p && sc.regions.getLsbD (regionPath.getD (regionOf p) 0) &&
    (match s.scrubHolds sc p, s.scrubFreeze sc with
     | some k, some f => (s.tile k).scrubReady f
     | none, some .switch => s.tileFree p
     | _, _ => true)

/-- A tile's part in a scrub is done. -/
def State.scrubDone (s : State) (sc : Scrub) (p : Nat) : Bool :=
  match s.scrubHolds sc p with
  | some k => (s.tile k).scrubbed
  | none => sc.bits.contains p

/-- Every tile of a scrub's regions that takes part in it is done. -/
def State.scrubOver (s : State) (sc : Scrub) : Bool :=
  (regionsOf sc.regions).all (fun r => (regionTiles r).all (fun p => !s.scrubbable p || s.scrubDone sc p))

/-! Receipts (R324, R326). -/

/-- The completion bit that a receipt shows of a tile: 0 while it is in screening, or lost. -/
def State.shownBit (s : State) (sc : Scrub) (p : Nat) : Bool :=
  sc.bits.contains p && decide ((s.ptile p).role ≠ .screening) && decide ((s.ptile p).role ≠ .lost)

/-- The bytes of a completion bitmap: 16 B per region, a bit per tile at 16w + u. -/
def State.bitmap (s : State) (sc : Scrub) : List Byte :=
  (regionsOf sc.regions).flatMap (fun r => toBytes 16 ((List.range 128).foldl (fun n i =>
    if s.shownBit sc (tileAt r (i % 16) (i / 16)) then n + 2 ^ i else n) 0))

/-- The tenant that the n-th receipt names as outgoing: after a change the one whose partition lost regions; among several
the manual leaves the choice open (log entry 20). -/
def Scrub.outgoingOf (sc : Scrub) (n : Nat) : Option (BitVec 4) :=
  match sc.outs with
  | [] => sc.outgoing
  | [t] => some t
  | _ => Config.receiptOutgoing n

/-- A tenant's number, 0 for none. -/
def tenantNum (t : Option (BitVec 4)) : Nat := (t.map BitVec.toNat).getD 0

/-- The 128 B message of a receipt. -/
def State.receiptMessage (s : State) (sc : Scrub) (n : Nat) : List Byte :=
  let o := sc.outgoingOf n
  let part := if sc.cause = causeDissolve && decide (sc.part = 48) then (Config.receiptPart n).toNat else sc.part
  toBytes 4 0x54435352 ++ toBytes 2 1 ++ toBytes 1 sc.cause ++ toBytes 1 part
    ++ toBytes 1 (tenantNum o + tenantNum sc.incoming * 16)
    ++ toBytes 1 ((if o.isSome then 1 else 0) + (if sc.incoming.isSome then 2 else 0))
    ++ toBytes 6 sc.regions.toNat ++ toBytes 8 sc.last.toNat ++ toBytes 8 Config.serial.toNat ++ toBytes 8 n
    ++ sha256 (s.bitmap sc) ++ List.replicate 56 0

/-- The receipt number is that of the latest receipt naming the tenant of a slot as incoming. -/
def Partition.noteReceipt (p : Partition) (tenant : Option (BitVec 4)) (n : Word) : Partition :=
  match tenant.bind (fun t => p.slotOf t.toNat) with
  | some 0 => { p with receipt0 := n }
  | some _ => { p with receipt1 := n }
  | none => p

/-- Two records of a scrub are of one scrub: a partition has one scrub of a cause at a time, and a dissolution is alone. -/
def Scrub.same (x y : Scrub) : Bool :=
  decide (x.cause = y.cause) && decide (x.part = y.part) && decide (x.outgoing = y.outgoing)

/-- A scrub as it stands now: a tile that was put aside meanwhile has changed it. -/
def State.scrubNow (s : State) (sc : Scrub) : Scrub := (s.scrubs.find? sc.same).getD sc

/-- A scrub is over. -/
def State.dropScrub (s : State) (sc : Scrub) : State := { s with scrubs := s.scrubs.eraseP sc.same }

/-- The receipt of a scrub is made, to be signed. -/
def State.makeReceipt (s : State) (sc0 : Scrub) : State :=
  let sc := s.scrubNow sc0
  let n := s.ten.made + 1
  let t : State := { s.dropScrub sc with
    receipts := s.receipts ++ [{ rseq := n, message := s.receiptMessage sc n.toNat }] }
  (t.updTen (fun x => { x with made := n })).updPart sc.part (fun p => p.noteReceipt sc.incoming n)

/-- The 17,088 B that the Idhan controller makes of a message. -/
def signatureOf (message : List Byte) : List Byte := (List.range 17088).map (Config.receiptSignature message)

/-- RECEIPT_SIGNED: the oldest receipt without a signature gets it, and networks that wait for it may start (R17, R325). -/
def execReceiptSigned (s : State) : Out :=
  match s.receipts.find? (fun r => !r.signed) with
  | none => .next s
  | some r =>
    let t : State := { s with receipts := s.receipts.map (fun x =>
      if x.rseq = r.rseq then { x with signature := signatureOf x.message, signed := true } else x) }
    .next (((t.updTen (fun x => { x with rhead := r.rseq })).raiseVector manage).netKeys.foldl State.tryStart
      ((t.updTen (fun x => { x with rhead := r.rseq })).raiseVector manage))

/-! The tenant switch (R320, R321). -/

/-- The command of an op that has begun in a queue. -/
def State.begunOp (s : State) (q op : Nat) : Option Command :=
  (Sparse.get s.queues q).begun.find? (fun c => decide (c.op = op))

/-- A begun command of an op completes OK. -/
def State.completeOp (s : State) (q op : Nat) : State :=
  match s.begunOp q op with
  | some c => s.completeCmd q c doneOk 0 0
  | none => s

/-- An outgoing vtile goes to the shadow store: its processes stay FROZEN. -/
def VTile.toShadow (t : VTile) : VTile :=
  { t with
    freeze := none, requests := [], scrubbed := false, tlb := [], walks := [], discard := [], recTimes := []
    emergency := false }

/-- An incoming vtile comes to its tile, with the tile's monitor and its waiting requests, or with its region's emergency. -/
def State.fromShadow (s : State) (k : Nat) : VTile :=
  let v := s.tile k
  match s.activeOn v.ptile with
  | some j => { v.takeMonitor (s.tile j) with requests := v.requests ++ (s.tile j).requests }
  | none => if (s.region (regionOf v.ptile)).emergency then v.request .emergency else v

/-- A vtile of the incoming tenant starts or resumes; answers that came while it was absent take effect before any of its
processes issues (R101, R103). -/
def State.arriveTenant (s : State) (k : Nat) : State :=
  if (s.tile k).lost then s
  else (s.updTile k (fun t => { t with freeze := some { stage := .quiescent } })).actAnswers k |>.release k

/-- The state of a partition's record: changing while an admission into its active slot, a change or a reset of one of its
regions goes on, else switching or evicting while such a scrub does (R315). -/
def State.partState (s : State) (q : Nat) : BitVec 8 :=
  let scrub (c : Nat) : Bool := s.scrubs.any (fun sc => decide (sc.part = q) && decide (sc.cause = c))
  if (decide (s.up.rgphase = 1) && (s.part q).regions.getLsbD (regionPath.getD s.up.rgact.toNat 48))
      || s.ten.affected.contains q || scrub causeAdmit then 2
  else if scrub causeSwitch then 3
  else if scrub causeEvict then 4
  else 1

/-- The state of a partition's record follows what goes on. -/
def State.restate (s : State) (q : Nat) : State :=
  if (s.part q).state = 0 then s else s.updPart q (fun p => { p with state := s.partState q })

/-- A switch ends: the active slot changes, the receipt is made, the incoming processes thaw, and SWITCH completes. -/
def State.endSwitch (s : State) (sc : Scrub) : State :=
  let q := sc.part
  let inn := s.keysOf q (tenantNum sc.incoming)
  let out := if sc.outgoing.isSome then s.keysOf q (tenantNum sc.outgoing) else []
  let t := inn.foldl (fun u k => u.setTile k (s.fromShadow k)) s
  let t := out.foldl (fun u k => u.updTile k VTile.toShadow) t
  let t := ((t.updPart q (fun p => { p with act := !p.act })).makeReceipt sc).restate q
  (inn.foldl State.arriveTenant t).completeOp q opSwitch

/-! Eviction of a tenant (R322). -/

/-- A tenant holds a slot of a partition no more. -/
def Partition.vacate (p : Partition) (tenant : Nat) : Partition :=
  match p.slotOf tenant with
  | some 0 => { p with v0 := false, t0 := 0, receipt0 := 0 }
  | some _ => { p with v1 := false, t1 := 0, receipt1 := 0 }
  | none => p

/-- A step that waited for the freeze of a vtile which is gone goes on with the other vtile of the tile. -/
def State.rewarm (s : State) : State :=
  s.updRel (fun l => { l with rotations := l.rotations.map (fun e => (e.1, e.2.map (fun x =>
    if x.stage = .freezing && (s.activeOn x.from_).isNone then { x with stage := .warm } else x))) })

/-- Rotation steps of tiles that hold no vtile any more, and have not moved one, are dropped. -/
def State.dropSteps (s : State) : State :=
  (s.updRel (fun l => { l with rotations := l.rotations.filter (fun e => match e.2 with
    | some x => (decide (x.stage ≠ .warm) && decide (x.stage ≠ .freezing)) || !(s.keysOn x.from_).isEmpty
    | none => false) })).rewarm.retireEmpty

/-- An eviction ends: the tenant's vtiles are gone with their tables and apertures, its network is over, its slot is
vacant, the receipt is made, and EVICT completes. -/
def State.endEvict (s : State) (sc : Scrub) : State :=
  let q := sc.part
  let tenant := tenantNum sc.outgoing
  let t := (s.dropVTiles (s.keysOf q tenant)).finish (netKey q tenant)
  let u := (t.updNet (netKey q tenant) (fun _ => {})).dropSteps
  ((((u.updPart q (fun p => p.vacate tenant)).refreshFull q).makeReceipt sc).restate q).completeOp q opEvict

/-- A scrub of a switch or an eviction ends when every tile is done. -/
def State.endScrub (s : State) (sc : Scrub) : State :=
  if !s.scrubOver sc then s
  else if sc.cause = causeSwitch then s.endSwitch sc
  else if sc.cause = causeEvict then s.endEvict sc
  else s

/-- A tile's scrub sets its completion bit; the scrub of a change of partitions begins its rehash. -/
def State.scrubTile (s : State) (sc : Scrub) (p : Nat) : State :=
  let sc' := sc.done p s.time
  let t : State := { s with scrubs := s.scrubs.map (fun x => if x = sc then sc' else x) }
  let t := (t.updPTile p (fun x => { x with stub := none })).updTen (fun x =>
    { x with pcphase := if x.pcphase = 2 && sc.cause ≠ causeSwitch && sc.cause ≠ causeEvict then 3 else x.pcphase })
  match s.scrubHolds sc p with
  | some k => t.updTile k (fun v => { v with scrubbed := true })
  | none => t

/-- The scrub at a tile that goes on next: one whose part at the tile may end, else one that may be over. -/
def State.scrubAt (s : State) (p : Nat) : Option Scrub :=
  s.scrubs.find? (fun sc => sc.regions.getLsbD (regionPath.getD (regionOf p) 0))

/-- A SWITCH begins: refused without a slot, done at once when the tenant is active. -/
def State.doSwitch (s : State) (q : Nat) (c : Command) : State :=
  let p := s.part q
  if c.tenant ≥ 16 || (p.slotOf c.tenant).isNone then s.completeCmd q c doneRefused 10 0
  else if p.activeTenant = some c.tenant then s.completeCmd q c doneOk 0 0
  else
    let sc : Scrub := {
      cause := causeSwitch, part := q, outgoing := p.activeTenant.map (BitVec.ofNat 4)
      incoming := some (BitVec.ofNat 4 c.tenant), regions := p.regions }
    let t := (s.activeKeys q).foldl (fun u k => u.updTile k (fun v => v.request .switch)) s
    State.endScrub (State.restate { t with scrubs := t.scrubs ++ [sc] } q) sc

/-- SWITCH. -/
def execSwitch (s : State) : Out := .next ((s.beginCommand s.arg.q opSwitch (fun t c _ => t.doSwitch s.arg.q c)).noted s)

/-- An EVICT begins: the tenant's network is stopped, and its tiles are frozen if it is active. -/
def State.doEvict (s : State) (q : Nat) (c : Command) : State :=
  let p := s.part q
  if c.tenant ≥ 16 || (p.slotOf c.tenant).isNone then s.completeCmd q c doneRefused 10 0
  else
    let sc : Scrub := { cause := causeEvict, part := q, outgoing := some (BitVec.ofNat 4 c.tenant), regions := p.regions }
    let t := s.stopNet (netKey q c.tenant)
    let t := if p.activeTenant = some c.tenant then
        (t.activeKeys q).foldl (fun u k => u.updTile k (fun v => v.request .evict)) t
      else t
    State.endScrub (State.restate { t with scrubs := t.scrubs ++ [sc] } q) sc

/-- EVICT. -/
def execEvict (s : State) : Out := .next ((s.beginCommand s.arg.q opEvict (fun t c _ => t.doEvict s.arg.q c)).noted s)

/-! Changes of partitions (R317, R318). -/

/-- The fields of a write to pcop. -/
def Tenancy.setPcop (t : Tenancy) (v : Word) : Tenancy :=
  { t with
    pcpart := v.extractLsb' 8 8, pckeep := v.getLsbD 7, pctenant := v.extractLsb' 3 4, pcdual := v.getLsbD 2
    pcop := v.setWidth 2 }

/-- A change is in progress: the registers are not written. -/
def Tenancy.changing (t : Tenancy) : Bool := decide (1 ≤ t.pcphase.toNat) && decide (t.pcphase.toNat ≤ 3)

/-- A change is refused with an error. -/
def State.refuseChange (s : State) (err : Nat) : State :=
  (s.updTen (fun t => { t with pcphase := 15, pcerr := BitVec.ofNat 8 err })).raiseVector manage

/-- The partitions that have a region of a set, by number. -/
def State.partsWith (s : State) (m : BitVec 48) : List Nat :=
  (s.parts.filter (fun e => decide (e.2.regions &&& m ≠ 0))).map (fun e => e.1)

/-- The mapped well pages of a vtile, in page order. -/
def VTile.mappedPages (t : VTile) : List Nat := (t.pt.filter (fun e => entryM e.2)).map (fun e => e.1)

/-- The mapped pages of the affected partitions, in the order of the flush: vtile and page. -/
def State.pagesOf (s : State) (l : List Nat) : List (Nat × Nat) :=
  (s.vts.filter (fun e => l.contains (e.1 / 65536 / 16))).flatMap (fun e => e.2.mappedPages.map (fun g => (e.1, g)))

/-- The first check of a form or a dissolution that fails; 0 when none does. -/
def State.changeRefuses (s : State) (l : List Nat) : Nat :=
  let m := s.ten.pcregions
  if m = 0 then 4
  else if (regionsOf m).any (fun r => decide ((s.region r).code ≠ 1)) then 3
  else if l.any (fun q => (List.range 16).any (fun t => (Sparse.get s.nets (netKey q t)).resident)) then 1
  else if l.any (fun q => (Sparse.get s.queues q).en) then 2
  else if s.ten.pckeep && decide (s.ten.pcfll.toNat < (65536 + 64) * (s.pagesOf l).length) then 6
  else 0

/-- The bytes of a flushed page: its header, and the page. -/
def State.flushedPage (s : State) (k g : Nat) : List Byte :=
  let e := Sparse.get (s.tile k).pt g
  let a := hbmAddr (regionOf (s.tile k).ptile) (entryStk e) (entryFrame e) 0
  toBytes 64 (k / 65536 / 16 + k / 65536 % 16 * 256 + k % 65536 * 65536 + g * 2 ^ 32) ++ Memory.read s.hbm a 65536

/-- Step 2: with keep, every mapped page is written to the flush buffer. -/
def State.flush (s : State) : State :=
  if !s.ten.pckeep then s
  else
    ((s.pagesOf s.ten.affected).zipIdx).foldl (fun t e =>
      { t with hostMem := Memory.write t.hostMem (s.ten.pcflb.toNat + (65536 + 64) * e.2) (s.flushedPage e.1.1 e.1.2) }) s

/-- The number of a partition that is left of one after a dissolution; 48 where none or several are left. -/
def State.partLeft (s : State) : Nat :=
  match s.ten.affected.filterMap (fun q =>
      let l := (s.part q).regions &&& ~~~s.ten.pcregions
      if l = 0 then none else some (firstIndex l)) with
  | [q] => q
  | _ => 48

/-- The scrub of a change: of the regions that it names. -/
def State.changeScrub (s : State) : Scrub :=
  let m := s.ten.pcregions
  let outs := (s.ten.affected.flatMap (fun q => (s.part q).tenants)).eraseDups
  if s.ten.pcop = 0 then
    { cause := causeForm, part := firstIndex m, incoming := some s.ten.pctenant, regions := m, outs := outs, last := s.time }
  else { cause := causeDissolve, part := s.partLeft, regions := m, outs := outs, last := s.time }

/-- No step is moving a vtile of the affected partitions. -/
def State.noMoves (s : State) : Bool :=
  s.vts.all (fun e => !(s.ten.affected.contains e.2.part && s.moving e.2.ptile))

/-- Once every tile of the affected partitions is quiescent, step 1 ends: pages are flushed, and the scrub begins. -/
def State.advanceChange (s : State) : State :=
  if s.ten.pcphase = 1 && s.noMoves && !(s.scrubs.any (fun sc => s.ten.affected.contains sc.part)) && (s.ten.affected.flatMap s.activeKeys).all (fun k =>
      (s.tile k).lost || ((s.tile k).quiescent && decide (((s.tile k).freeze.map (fun f => f.kind)) = some .change))) then
    let t := s.flush.updTen (fun t => { t with pcphase := if t.pckeep then 2 else 3 })
    { t with scrubs := t.scrubs ++ [s.changeScrub] }
  else s

/-- SCRUB_COMPLETE: the structures of a tile are done. -/
def execScrubComplete (s : State) : Out :=
  let p := s.arg.p
  match s.scrubAt p with
  | none => .next (s.advanceChange.noted s)
  | some sc =>
    let t := if s.mayScrub sc p then s.scrubTile sc p else s
    match t.scrubAt p with
    | some sc' => .next ((t.endScrub sc').advanceChange.noted s)
    | none => .next (t.advanceChange.noted s)

/-- A change begins: step 1. -/
def State.beginChange (s : State) : State :=
  let m := s.ten.pcregions
  let old := s.partsWith m
  let l := if s.ten.pcop = 0 && !old.contains (firstIndex m) then old ++ [firstIndex m] else old
  let err := s.changeRefuses l
  if err ≠ 0 then s.refuseChange err
  else
    let t := s.updTen (fun t => { t with pcphase := 1, pcerr := 0, affected := old })
    let t := old.foldl State.restate t
    ((old.flatMap t.activeKeys).foldl (fun u k => u.updTile k (fun v => v.request .change)) t).advanceChange

/-! Rehash (R14, R318). -/

/-- A vtile that stays on its tile under a new number, its table cleared. -/
def VTile.renumber (t : VTile) (q num : Nat) : VTile :=
  { t with part := q, num := num, pt := [], tlb := [], walks := [], discard := [] }

/-- The vtile of a tenant at a tile after a rehash: the one that stood there, unless its region changed partition. -/
def State.rehashed (s : State) (old : List Nat) (changed : BitVec 48) (q tenant num p : Nat) : VTile :=
  match (s.vts.find? (fun e => old.contains e.1 && decide (e.2.ptile = p) && decide (e.2.tenant = tenant))) with
  | some e =>
    if changed.getLsbD (regionPath.getD (regionOf p) 0) then s.freshVTile q tenant num p else e.2.renumber q num
  | none => s.freshVTile q tenant num p

/-- The vtiles of a partition after a rehash. -/
def State.rehashPart (s base : State) (old : List Nat) (changed : BitVec 48) (q : Nat) (p : Partition) : State :=
  p.tenants.foldl (fun t x => (p.tiles.zipIdx).foldl (fun u e =>
    u.setTile (vtKey q x.toNat e.2) (base.rehashed old changed q x.toNat e.2 e.1)) t) s

/-- Partitions are replaced by new ones: vtiles are renumbered, and the vtiles, the queue blocks and the networks of the
numbers that ceased are gone. -/
def State.rehash (s : State) (affected : List Nat) (new : List (Nat × Partition)) (changed : BitVec 48) : State :=
  let old := affected.flatMap s.keysIn
  let ceased := affected.filter (fun q => !(new.any (fun e => e.1 == q)))
  let t := s.removeVTiles old
  let t : State := { t with
    parts := new.foldl (fun m e => Sparse.set m e.1 e.2) (affected.foldl Sparse.drop t.parts)
    queues := ceased.foldl Sparse.drop t.queues
    nets := t.nets.filter (fun e => !affected.contains (e.1 / 16)) }
  let u := (new.foldl (fun u e => u.rehashPart s old changed e.1 e.2) t).dropSteps
  (new.map (fun e => e.1)).foldl State.refreshFull u

/-- A partition without some of its regions, and its number; none when nothing is left. -/
def State.remainder (s : State) (m : BitVec 48) (q : Nat) : Option (Nat × Partition) :=
  let p := s.part q
  let l := p.regions &&& ~~~m
  if l = 0 then none else some (firstIndex l, { p with regions := l, state := 1, tiles := s.vtileOrder l })

/-- The partitions after a change. -/
def State.newParts (s : State) : List (Nat × Partition) :=
  let m := s.ten.pcregions
  (s.ten.affected.filterMap (s.remainder m))
    ++ (if s.ten.pcop = 0 then
          [(firstIndex m, ({ regions := m, t0 := s.ten.pctenant, v0 := true, dual := s.ten.pcdual, state := 1,
                             tiles := s.vtileOrder m } : Partition))]
        else [])

/-- A vtile that a change froze is released. -/
def State.releaseChange (s : State) (k : Nat) : State :=
  if ((s.tile k).freeze.map (fun f => f.kind)) = some .change then s.release k else s

/-- A change ends in phase 4. -/
def State.changeEnds (s : State) : State :=
  (s.updTen (fun t => { t with pcphase := 4, affected := [] })).raiseVector manage

/-! Admission (R319). -/

/-- The lowest vacant slot of a partition. -/
def Partition.vacant (p : Partition) : Option Nat :=
  if !p.v0 then some 0 else if p.dual && !p.v1 then some 1 else none

/-- A tenant takes a slot. -/
def Partition.seat (p : Partition) (slot : Nat) (t : BitVec 4) : Partition :=
  if slot = 0 then { p with v0 := true, t0 := t } else { p with v1 := true, t1 := t }

/-- The slot is the active one. -/
def Partition.isActive (p : Partition) (slot : Nat) : Bool := p.act == decide (slot = 1)

/-- An admission begins, into the lowest vacant slot: with a scrub when that is the active one. -/
def State.beginAdmit (s : State) : State :=
  let q := s.ten.pcpart.toNat
  let p := s.part q
  match (if p.state ≠ 0 && (p.slotOf s.ten.pctenant.toNat).isNone then p.vacant else none) with
  | none => s.refuseChange 7
  | some slot =>
    let t := s.updTen (fun t => { t with pcphase := 3, pcerr := 0, pcslot := slot })
    if p.isActive slot then
      let sc : Scrub := {
        cause := causeAdmit, part := q, incoming := some s.ten.pctenant, regions := p.regions, last := s.time }
      State.restate { t with scrubs := t.scrubs ++ [sc] } q
    else t

/-- Vtiles that come to a partition while a switch, or the eviction of its active tenant, goes on take its request too. -/
def State.rejoin (s : State) (q : Nat) : State :=
  s.scrubs.foldl (fun t sc =>
    match (if sc.part = q then t.scrubFreeze sc else none) with
    | some f => (t.activeKeys q).foldl (fun u k => u.updTile k (fun v =>
        if (v.freeze.map (fun x => x.kind)) = some f then v else v.request f)) t
    | none => t) s

/-- A switch of a partition that waits behind an admission takes the new tenant as the outgoing one. -/
def State.outgoingNow (s : State) (q : Nat) : State :=
  { s with scrubs := s.scrubs.map (fun x =>
      if x.part = q && x.cause = causeSwitch then { x with outgoing := (s.part q).activeTenant.map (BitVec.ofNat 4) } else x) }

/-- An admission ends: the tenant has its slot and its vtiles with zero images, and a receipt if it is active; a switch that
ended meanwhile has made the slot the shadow one. -/
def State.endAdmit (s : State) (sc : Option Scrub) : State :=
  let q := s.ten.pcpart.toNat
  let slot := s.ten.pcslot
  let t := (s.updPart q (fun p => p.seat slot s.ten.pctenant)).addTenant q s.ten.pctenant.toNat
  let u := match sc with
    | none => t
    | some sc =>
      if (t.part q).isActive slot then ((t.makeReceipt sc).outgoingNow q).rejoin q else t.dropScrub sc
  (u.restate q).changeEnds

/-! The register pcop (R317). -/

/-- A write of pcop: while a change is in progress it is ignored; with go its operation begins. Before ready no region is
taken to be up, and there is no partition (log entry 103). -/
def State.writePcop (s : State) (v : Word) : State :=
  if s.ten.changing then s
  else
    let t := s.updTen (fun t => t.setPcop v)
    if !v.getLsbD 16 then t
    else
      match (v.setWidth 2).toNat with
      | 0 | 1 => if s.up.phase = 7 then t.beginChange else t.refuseChange 3
      | 2 => if s.up.phase = 7 then t.beginAdmit else t.refuseChange 7
      | _ => t.refuseChange 5

/-- A write of pcop that starts an operation. -/
def startsOp (v : Word) (op : Nat) : Bool := v.getLsbD 16 && decide ((v.setWidth 2).toNat = op)

/-- PARTITION_FORM: a write of pcop with go and op 0. -/
def execPartitionForm (s : State) : Out :=
  if s.barOpen && startsOp s.arg.v 0 then .next (s.writePcop s.arg.v) else .next s

/-- PARTITION_DISSOLVE: op 1. -/
def execPartitionDissolve (s : State) : Out :=
  if s.barOpen && startsOp s.arg.v 1 then .next (s.writePcop s.arg.v) else .next s

/-- PARTITION_ADMIT: op 2. -/
def execPartitionAdmit (s : State) : Out :=
  if s.barOpen && startsOp s.arg.v 2 then .next (s.writePcop s.arg.v) else .next s

/-- The scrub of the change in progress. -/
def State.scrubOfChange (s : State) : Option Scrub :=
  s.scrubs.find? (fun sc => decide (sc.cause ≠ causeSwitch) && decide (sc.cause ≠ causeEvict))

/-- A form or a dissolution ends: the partitions are rehashed, and their tiles released. -/
def State.endChange (s : State) (sc : Scrub) : State :=
  let new := s.newParts
  let t := (s.rehash s.ten.affected new s.ten.pcregions).makeReceipt sc
  ((new.flatMap (fun e => t.keysIn e.1)).foldl State.releaseChange t).changeEnds

/-- PARTITION_CHANGE_DONE: flush, scrub and rehash are over, and the records are written. -/
def execPartitionChangeDone (s : State) : Out :=
  if s.ten.pcphase ≠ 3 && s.ten.pcphase ≠ 2 then .next s
  else
    match s.scrubOfChange with
    | some sc =>
      if !s.scrubOver sc then .next s
      else if sc.cause = causeAdmit then .next ((s.endAdmit (some sc)).noted s)
      else .next ((s.endChange sc).noted s)
    | none => if s.ten.pcop = 2 then .next ((s.endAdmit none).noted s) else .next s

/-! Quiescence (R97, R100). -/

/-- The stage of a tile's freeze once steps 2 to 5 have ended. -/
def VTile.toQuiescent (t : VTile) : VTile := { t with freeze := t.freeze.map (fun f => { f with stage := .quiescent }) }

/-- The action of a freeze at a quiescent tile (R100): a capture or a rotation acts at once, a change of partitions when
its last tile has come to rest; an emergency and the eviction of the blade hold the tile; a switch and an eviction wait
for its scrub. -/
def State.freezeAction (s : State) (k : Nat) (kind : FreezeKind) : State :=
  match kind with
  | .capture => s.capture k
  | .rotation => s.rotateNow k
  | .change => s.advanceChange
  | .blade => if s.evicting then s else s.release k
  | .emergency | .switch | .evict => s

/-- TILE_QUIESCENT: steps 2 to 5 of a tile's freeze have ended, and its action runs. -/
def execTileQuiescent (s : State) : Out :=
  let k := s.arg.k
  match (s.tile k).freeze with
  | some f =>
    if f.stage = .draining && s.active k && s.drained k then
      .next ((s.updTile k VTile.toQuiescent).freezeAction k f.kind)
    else .next s
  | none => .next s

/-! The reset of a region (R307). -/

/-- The partition that a region belongs to. -/
def State.partOfRegion (s : State) (r : Nat) : Option Nat :=
  (s.parts.find? (fun e => e.2.regions.getLsbD (regionPath.getD r 0))).map (fun e => e.1)

/-- Why a region's reset is refused; 0 when it is not. -/
def State.resetRefuses (s : State) (r : Nat) : Nat :=
  if 47 < r then 2
  else if s.busyRegion then 3
  else
    match s.partOfRegion r with
    | some q => if (List.range 16).any (fun t => (Sparse.get s.nets (netKey q t)).resident) then 1 else 0
    | none => 0

/-- A region is powered down, and all state of its tiles is lost; its ramp begins. -/
def State.darken (s : State) (r : Nat) : State :=
  let here (p : Nat) : Bool := decide (regionOf p = r)
  let t := (s.bankPower r).dropVTiles ((s.vts.filter (fun e => here e.2.ptile)).map (fun e => e.1))
  let t : State := { t with
    hbm := t.hbm.filter (fun c => decide (c.1 / 2 ^ 37 ≠ r))
    frameTen := t.frameTen.filter (fun c => decide (c.1 / 2 ^ 21 ≠ r)) }
  let t := (t.updRel (fun l => { l with
    rotations := l.rotations.filter (fun e => decide (e.1 / 2 ≠ r))
    screens := l.screens.filter (fun x => !here x.ptile) })).retireEmpty
  let t := (regionTiles r).foldl (fun u p => u.updPTile p (fun x => { x with failed := false, stub := none, mon := false })) t
  t.startRamp r

/-- A write of rgrst. A go during the reset itself leaves its phase, with err until it ends; before ready there is nothing
to reset. -/
def State.writeRgrst (s : State) (v : Word) : State :=
  let r := (v.setWidth 6 : BitVec 6).toNat
  let t := s.updUp (fun u => { u with rgregion := v.setWidth 6 })
  let err : BitVec 8 := BitVec.ofNat 8 (s.resetRefuses r)
  if !s.barOpen then s
  else if !v.getLsbD 8 || s.up.phase ≠ 7 then t
  else if err = 0 then
    let u := (t.darken r).updUp (fun u => { u with rgphase := 1, rgerr := 0, rgact := v.setWidth 6 })
    (match s.partOfRegion r with
     | some q => u.restate q
     | none => u).noted s
  else if s.up.rgphase = 1 then t.updUp (fun u => { u with rgerr := err })
  else (t.updUp (fun u => { u with rgphase := 15, rgerr := err })).raiseVector manage

/-- REGION_RESET. -/
def execRegionReset (s : State) : Out := .next (s.writeRgrst s.arg.v)

/-- A partition is rehashed with the regions that it has. -/
def State.rehashSame (s : State) (q : Nat) : State :=
  let p := s.part q
  ((s.rehash [q] [(q, { p with tiles := s.vtileOrder p.regions })] 0).rejoin q).restate q

/-- The links of a region as a new training finds them, none better than before (R301, R307). -/
def State.retrain (s : State) (r : Nat) : State :=
  (s.arg.links.foldl (fun t f =>
    let l := Sparse.get t.links f.index
    if l.regions.contains r && !t.links.isEmpty && decide (f.index < linkCount) then
      t.setLink f.index (l.found f.cond.toNat f.rate) else t) s).reviseEv

/-- REGION_RESET_DONE: the region is up again or lost; BIST names bad tiles and, from 2^16 on, the region itself. Its links
are trained, its tiles divided, and its partition rehashed. -/
def execRegionResetDone (s : State) : Out :=
  let r := s.up.rgact.toNat
  if s.up.rgphase ≠ 1 || ((s.region r).power ≠ .on && (s.region r).power ≠ .lost) then .next s
  else
    let t := (s.arg.bad.filter (fun b => decide (b.1 = 2 ^ 16 + r) || decide (regionOf b.1 = r))).foldl State.bistBad s
    let t := if (t.region r).power = .on then (t.divide r).retrain r else (t.regionFails r)
    let t := t.updUp (fun u => { u with rgphase := 2, rgerr := 0 })
    let t := match t.partOfRegion r with
      | some q => t.rehashSame q
      | none => t
    .next ((t.raiseVector manage).noted s)

end Sys2Proof.Machine
end

