-- ==== Sys2Proof/Machine/Blade.lean ====
section
/-! DEFINITION. Links that degrade, optical ports and their codewords, and the eviction of the blade (R301, R306, R347 to
R353). -/

namespace Sys2Proof.Machine

/-! Links that get worse (R301). -/

/-- What a link that got worse brings: the entry rewritten, gen, vector 2, and an eviction's estimate. Without the host link
the queues stall (R306). -/
def State.worseLink (s : State) (i : Nat) (l : Link) : State :=
  let t := s.setLink i l
  let t := if i = hostLinkEntry && l.cond = 15 then t.updUp (fun u => { u with hostLink := false }) else t
  ((t.noted s).raiseVector manage).reviseEv

/-- LINK_DEGRADE: the link n goes to the condition c at a rate; never to a better one. -/
def execLinkDegrade (s : State) : Out :=
  let i := s.arg.n
  let l := Sparse.get s.links i
  let m := l.found s.arg.c s.arg.rate
  if linkCount ≤ i || s.links.isEmpty || m = l then .next s else .next (s.worseLink i m)

/-- HOST_LINK_DOWN: the host link is lost; its entry shows missing, and the queues stall (R306). -/
def execHostLinkDown (s : State) : Out :=
  if !s.up.hostLink then .next s
  else
    if s.links.isEmpty then .next (s.updUp (fun u => { u with hostLink := false }))
    else .next (s.worseLink hostLinkEntry (Sparse.get s.links hostLinkEntry).missing)

/-! Optical ports (R347, R349). -/

/-- The state with one lane changed. -/
def State.updLane (s : State) (port lane : Nat) (f : Lane → Lane) : State :=
  { s with lanes := Sparse.upd s.lanes (port * 64 + lane) f }

/-- The port of an event, and a lane, exist. -/
def isLane (port lane : Nat) : Bool := decide (port < 48) && decide (lane < 64)

/-- The record that acknowledges a codeword, or requests its resend. -/
def ackOf (lane : Nat) (seq : BitVec 16) (resend : Bool) : AckRecord :=
  { seq := seq, lane := BitVec.ofNat 4 (lane % 16), resend := resend, pair := BitVec.ofNat 2 (lane / 16) }

/-- A message from another panel enters the fabric at the tile of its vtile. -/
def State.fromFar (s : State) (m : Msg) : State :=
  if m.dst.vt < 2 ^ 60 && 2 ^ 60 ≤ m.src.vt && s.hasTile m.dst.vt && !(s.tile m.dst.vt).lost then
    s.setOut { m with tile := (s.tile m.dst.vt).ptile, back := false, held := false }
  else s

/-- A message whose last flit has come enters the fabric. -/
def State.takeFlit (s : State) (f : Flit) : State :=
  if f.lost || f.idx + 1 ≠ f.of_ then s else s.fromFar f.msg

/-- The codewords of a lane that are next in order join its stream of flits. -/
def Lane.inOrder (l : Lane) : Nat → Lane
  | 0 => l
  | n + 1 =>
    match l.held.find? (fun h => decide (h.1 = l.rxSeq)) with
    | none => l
    | some h => { l with rxSeq := l.rxSeq + 1, held := l.held.erase h, stream := l.stream ++ h.2 }.inOrder n

/-- A codeword of a lane is in hand; one that was in hand already changes nothing. -/
def Lane.keep (l : Lane) (seq : BitVec 16) (flits : List Flit) : Lane :=
  let h := l.held ++ [(seq, flits)]
  if (seq - l.rxSeq).toNat < 2 ^ 15 && !(l.held.any (fun h => h.1 == seq)) then { l with held := h }.inOrder h.length else l

/-- The flits of a port are delivered in the order in which they were dealt to its lanes. -/
def State.deliverLanes (s : State) (port : Nat) : Nat → State
  | 0 => s
  | n + 1 =>
    let o := Sparse.get s.optPorts port
    match o.lanes[o.rx]? with
    | none => s
    | some lane =>
      match (s.lane port lane).stream with
      | [] => s
      | f :: l =>
        let t := s.updLane port lane (fun x => { x with stream := l })
        let u : State := { t with optPorts := Sparse.set t.optPorts port { o with rx := (o.rx + 1) % o.lanes.length } }
        State.deliverLanes (u.takeFlit f) port n

/-- A codeword comes to hand on a lane, and what is next in order is delivered. -/
def State.keepCodeword (s : State) (port lane : Nat) (seq : BitVec 16) (flits : List Flit) : State :=
  let t := s.updLane port lane (fun l => l.keep seq flits)
  t.deliverLanes port (((List.range 64).map (fun l => (t.lane port l).stream.length)).foldl (· + ·) 0)

/-- The requests for one codeword after which its transfers end DROPPED (R45, R349). -/
def resendLimit : Nat := 16

/-- A codeword that cannot be corrected is discarded and its resend requested; after 16 requests the transfers whose flits
it carries end DROPPED, and the lane goes on behind it. -/
def State.badCodeword (s : State) (port lane : Nat) (seq : BitVec 16) (flits : List Flit) : State :=
  let t := s.updLane port lane (fun l => { l with bad := seq :: l.bad, toAck := l.toAck ++ [ackOf lane seq true] })
  if ((t.lane port lane).bad.filter (fun x => x == seq)).length < resendLimit then t
  else
    let u := (t.updLane port lane (fun l => { l with bad := l.bad.filter (fun x => x != seq) })).dropAll
      (flits.map (fun f => f.msg))
    if flits.any (fun f => decide (f.msg.kind = MsgKind.close)) then u
    else u.keepCodeword port lane seq (flits.map (fun f => { f with lost := true }))

/-- The records that a type 1 codeword holds. -/
def acksPerCodeword : Nat := 160

/-- The lane of a port whose oldest record has waited for the most codewords of its lane, the lowest of equals. -/
def State.lateLane (s : State) (port : Nat) : Nat :=
  (List.range 64).foldl (fun b l => if (s.lane port b).toAck.length < (s.lane port l).toAck.length then l else b) 0

/-- The records that a type 1 codeword takes, up to a number of them: always the one that has waited longest by its lane's
codewords (the model's choice: log entry 76), and the state without them. -/
def State.takeAcks (s : State) (port : Nat) : Nat → State × List AckRecord
  | 0 => (s, [])
  | n + 1 =>
    match (s.lane port (s.lateLane port)).toAck with
    | [] => (s, [])
    | r :: l =>
      let t := State.takeAcks (s.updLane port (s.lateLane port) (fun x => { x with toAck := l })) port n
      (t.1, r :: t.2)

/-- A type 1 codeword leaves a port with the records that its lanes have ready, up to 160. -/
def State.sendAcks (s : State) (port : Nat) : State :=
  let t := s.takeAcks port acksPerCodeword
  { t.1 with acksOut := t.1.acksOut ++ [(port, t.2)] }

/-- Every data codeword is acknowledged within 256 codewords of its lane. -/
def State.ackInTime (s : State) (port lane : Nat) : State :=
  if 255 ≤ (s.lane port lane).toAck.length then s.sendAcks port else s

/-- OPTICAL_DATA_CODEWORD: one that cannot be corrected is requested again; another one is acknowledged, and its flits are
delivered in order. -/
def execOpticalDataCodeword (s : State) : Out :=
  let p := s.arg.p
  let c := s.arg.c
  if !isLane p c || !((Sparse.get s.optPorts p).lanes.contains c) || !s.linkLive (opticalBase + p) then .next s
  else if !s.arg.ok then .next ((s.badCodeword p c s.arg.seq s.arg.flits).ackInTime p c)
  else
    let t := s.updLane p c (fun l => { l with
      toAck := l.toAck ++ [ackOf c s.arg.seq false], bad := l.bad.filter (fun x => x != s.arg.seq) })
    .next ((t.ackInTime p c).keepCodeword p c s.arg.seq s.arg.flits)

/-- A codeword of a port is the one that a record names. -/
def FarMsg.named (m : FarMsg) (port : Nat) (r : AckRecord) : Bool :=
  decide (m.port = port) && decide (m.lane = r.pair.toNat * 16 + r.lane.toNat) && decide (m.seq = r.seq)

/-- A codeword that was requested 16 times: the transfers whose flits it carries end DROPPED; what it carries of others is
requested further. -/
def State.giveUp (s : State) (c : FarMsg) : State :=
  if c.tries < resendLimit then s else s.dropAll (c.flits.map (fun f => f.msg))

/-- A record of an acknowledgement: the codeword is done, or to be sent again. -/
def State.takeAck (s : State) (port : Nat) (r : AckRecord) : State :=
  if !r.resend then { s with farOut := s.farOut.filter (fun m => !m.named port r) }
  else
    let t : State := { s with
      farOut := s.farOut.map (fun m => if m.named port r then { m with tries := m.tries + 1 } else m) }
    (t.farOut.filter (fun m => m.named port r)).foldl State.giveUp t

/-- OPTICAL_ACK_CODEWORD: one from the peer is taken record by record; with c = 1 one leaves the port. -/
def execOpticalAckCodeword (s : State) : Out :=
  if s.arg.c = 1 then
    .next (if s.linkLive (opticalBase + s.arg.p) && decide (s.arg.p < 48) then s.sendAcks s.arg.p else s)
  else .next ((s.arg.acks.take acksPerCodeword).foldl (fun t r => t.takeAck s.arg.p r) s)

/-- OPTICAL_IDLE_CODEWORD: no flit, no acknowledgement: nothing changes. -/
def execOpticalIdleCodeword (s : State) : Out := .next s

/-- OPTICAL_TRAINING_CODEWORD: at bring-up a lane locks, to a serial and a port. -/
def execOpticalTrainingCodeword (s : State) : Out :=
  if s.up.phase = 4 && isLane s.arg.p s.arg.c && !(s.lane s.arg.p s.arg.c).failed then
    .next (s.updLane s.arg.p s.arg.c (fun l => { l with locked := true, serial := s.arg.v, far := s.arg.n }))
  else .next s

/-- LANE_LOCK_TIMEOUT: a lane that has not locked within 100 ms counts as not working. -/
def execLaneLockTimeout (s : State) : Out :=
  if s.up.phase = 4 && isLane s.arg.p s.arg.c && !(s.lane s.arg.p s.arg.c).locked then
    .next (s.updLane s.arg.p s.arg.c (fun l => { l with failed := true }))
  else .next s

/-- OPTICAL_SIGNAL_LOSS: a port without its receive signal stops emitting; its link is missing (R301, R347). -/
def execOpticalSignalLoss (s : State) : Out :=
  let i := opticalBase + s.arg.p
  if 48 ≤ s.arg.p || !s.linkLive i then .next s
  else .next (s.worseLink i (Sparse.get s.links i).missing)

/-! The eviction of the blade (R350 to R353). -/

/-- The units of step 3 of every vtile, in order: its tile image, then its mapped pages (R351). -/
def State.evUnits (s : State) : List (Nat × Nat) :=
  s.vts.flatMap (fun e => (e.1, imageUnit) :: e.2.mappedPages.map (fun g => (e.1, g)))

/-- An eviction is requested: step 1: the queues stop fetching, and no rotation step starts. -/
def State.evRequest (s : State) : State :=
  if s.up.phase ≠ 7 || s.evicting then s
  else
    let t := (s.updEv (fun e => { e with step := 1, since := s.time, sent := [] })).updRel (fun l => { l with rotStop := true })
    (t.updEv (fun e => { e with err := t.evError })).setEst 2000000000 (unitsSize t.evUnits) t.evRate

/-- EVICTION_REQUEST. -/
def execEvictionRequest (s : State) : Out := .next s.evRequest

/-- A vtile that an eviction has to bring to rest. -/
def State.evKeys (s : State) : List Nat := s.running.filter (fun k => !(s.tile k).lost)

/-- Step 2 begins: a checkpoint of every tile is due. -/
def State.evCheckpoint (s : State) : State :=
  s.evKeys.foldl (fun t k => t.updTile k (fun v => { v with ckDue := true })) (s.updEv (fun e => { e with step := 2 }))

/-- A tile has taken its checkpoint, and is to be frozen. -/
def State.evFreeze (s : State) (k : Nat) : State :=
  let t := s.tile k
  if !t.ckDue && t.staged.isNone && !(t.quiescent && decide ((t.freeze.map (fun f => f.kind)) = some .blade)) then
    s.updTile k (fun v => if (v.freeze.map (fun f => f.kind)) = some .blade then v else v.request .blade)
  else s

/-- A tile has taken its checkpoint and is frozen. -/
def State.evAtRest (s : State) (k : Nat) : Bool :=
  let t := s.tile k
  t.quiescent && decide ((t.freeze.map (fun f => f.kind)) = some .blade)

/-- EVICTION_FROZEN: the steps 1 and 2 go on: no rotation step is left and checkpoints are due; then each tile with its
checkpoint freezes; once all have, the sending begins. -/
def execEvictionFrozen (s : State) : Out :=
  if s.ev.step = 1 then
    if s.rel.rotations.any (fun e => e.2.isSome) then .next s else .next s.evCheckpoint
  else if s.ev.step = 2 then
    if s.evKeys.all s.evAtRest then
      .next (s.updEv (fun e => { e with step := 3, todo := s.evUnits, rate := s.evRate, err := s.evError }))
    else .next (s.evKeys.foldl State.evFreeze s)
  else .next s

/-- The header of a unit: partition, tenant, whether a shadow tenant, vtile and page. -/
def State.unitHeader (s : State) (k page : Nat) : Word :=
  BitVec.ofNat 64 (k / 65536 / 16 + k / 65536 % 16 * 256 + (if s.active k then 0 else 4096) + k % 65536 * 65536
    + page * 2 ^ 32)

/-- The bytes of a unit: its header, then the context image, the tile store and the code store, or the page. -/
def State.unitBytes (s : State) (u : Nat × Nat) : List Byte :=
  let t := s.tile u.1
  toBytes 64 (s.unitHeader u.1 u.2).toNat
    ++ (if u.2 = imageUnit then t.imageBytes ++ t.im.tileStore ++ Memory.read t.im.code 0 0x40000
        else
          let e := Sparse.get t.pt u.2
          Memory.read s.hbm (hbmAddr (regionOf t.ptile) (entryStk e) (entryFrame e) 0) 65536)

/-- The next unit to be sent: the first whose region is in no emergency. -/
def State.nextUnit (s : State) : Option (Nat × Nat) :=
  s.ev.todo.find? (fun u => !(s.region (regionOf (s.tile u.1).ptile)).emergency)

/-- The bytes sent through a port. -/
def Eviction.sentBy (e : Eviction) (port : Nat) : Nat :=
  ((e.sent.filter (fun u => decide (u.1 = port))).map (fun u => u.2.length)).foldl (· + ·) 0

/-- The live named port that has sent the least of its share, the shares being in proportion to the rates: the lowest of
equals, which is the model's choice (log entry 77). -/
def State.nextPort (s : State) : Option Nat :=
  let less (a b : Nat) : Bool := decide (s.ev.sentBy a * (s.opticalLink b).rate.toNat < s.ev.sentBy b * (s.opticalLink a).rate.toNat)
  s.livePorts.foldl (fun o p => match o with
    | none => some p
    | some q => if less p q then some p else some q) none

/-- EVICTION_SEND_DONE: with c = 1 the next unit goes through the live named port whose turn it is, an emergency pausing the
sending of its region; else, when every unit has reached the target, the routes are to drain. -/
def execEvictionSendDone (s : State) : Out :=
  if s.ev.step ≠ 3 then .next s
  else if s.arg.c = 1 then
    match s.nextUnit, s.nextPort with
    | some u, some p => .next (s.updEv (fun e => { e with todo := e.todo.erase u, sent := e.sent ++ [(p, s.unitBytes u)] }))
    | _, _ => .next s
  else if s.ev.todo.isEmpty && !s.livePorts.isEmpty then .next (s.updEv (fun e => { e with step := 4 }))
  else .next s

/-- FABRIC_DRAINED: no route is held and no element unacknowledged: the blade may be removed, its counters saved and its
summary written (R351, R355, R357). -/
def execFabricDrained (s : State) : Out :=
  if s.ev.step ≠ 4 || !s.heldRoutes.isEmpty || !s.farOut.isEmpty
      || s.vts.any (fun e => e.2.im.copies.any (fun c => !c.2.sent.isEmpty)) then .next s
  else .next ((s.saveCounters.rewriteSummary).updEv (fun e => { e with step := 5, safe := true }))

/-- A tile leaves the freeze of an eviction: one not yet quiescent does so when it is. -/
def State.evRelease (s : State) (k : Nat) : State :=
  let t := s.updTile k (fun v => { v with requests := v.requests.filter (fun r => decide (r ≠ .blade)) })
  if s.evAtRest k then t.release k else t

/-- An eviction is abandoned: in steps 1 to 5 the tiles thaw, rotation resumes and the queues fetch again; with the latch
open an abort is ignored (R353). -/
def State.evAbort (s : State) : State :=
  if !s.evicting || s.ev.latchOpen then s
  else
    let t := (s.updEv (fun e => { e with safe := false, step := 6, todo := [] })).updRel (fun l => { l with rotStop := false })
    (List.range 48).foldl State.fetchQueue ((s.running).foldl State.evRelease t)

/-- EVICTION_ABORT. -/
def execEvictionAbort (s : State) : Out := .next s.evAbort

/-- A write of evser, or of the ports of evtgt, takes effect at once (R350). -/
def State.evTarget (s : State) (serial : Bool) (v : Word) : State :=
  (s.updEv (fun e => if serial then { e with serial := v } else { e with ports := v.setWidth 48 })).reviseEv

/-- EVICTION_TARGET_WRITE: a write of evser, or with ok false of evtgt. -/
def execEvictionTargetWrite (s : State) : Out := .next (s.evTarget s.arg.ok s.arg.v)

/-- A write of evctl: abort, then req (R350). -/
def State.evControl (s : State) (v : Word) : State :=
  let t := if v.getLsbD 1 then s.evAbort else s
  if v.getLsbD 0 then t.evRequest else t

/-- BLADE_UNLATCH: the latch opens only while it is safe, or without supply for 60 s. -/
def execBladeUnlatch (s : State) : Out :=
  if s.ev.safe || s.ev.supplyAbsent then .next (s.updEv (fun e => { e with latchOpen := true })) else .next s

/-- 60 s. -/
def absentLimit : Nat := 60000000000

/-- SUPPLY_ABSENT_60S. -/
def execSupplyAbsent60s (s : State) : Out :=
  if s.health.supplyOut && absentLimit ≤ s.supplyAway then
    .next (s.updEv (fun e => { e with supplyAbsent := true }))
  else .next s

end Sys2Proof.Machine
end

