-- ==== Sys2Proof/Machine/Capability.lean ====
section
/-! DEFINITION. Capability instructions (R162 to R167). -/

namespace Sys2Proof.Machine

/-- CAP_TAG of a derivation: addr holds x[31:0], aux the register and a footprint (R162). -/
def derivTag (g : GReg) (a : Reg) (size : Nat) : Flt :=
  { code := codeCapTag, addr := g.cursor, aux := Access.aux { reg := a, size := size } }

/-- A derivation: an untagged source raises CAP_TAG; else the derived capability is written (R162). -/
def State.derive (s : State) (d a : Reg) (f : GReg → GReg) : Out :=
  .next (if (s.g a).tag then (s.wg d (f (s.g a))).next else s.raise (derivTag (s.g a) a 0))

/-- A capability with its cursor moved (R164). -/
def GReg.move (g : GReg) (delta : Word) : GReg :=
  mkCap (g.cursor + delta.setWidth 32) g.base g.limit g.perms

/-- cbnd: bounds at the cursor (R163). -/
def execCbnd (d a b : Reg) (s : State) : Out :=
  .next (
    if !(s.g a).tag then s.raise (derivTag (s.g a) a (s.x b).toNat)
    else if (s.g a).cursor.toNat < (s.g a).base.toNat || (s.g a).limit.toNat < (s.g a).cursor.toNat + (s.x b).toNat then
      s.raise { code := codeCapBounds, addr := (s.g a).cursor, aux := Access.aux { reg := a, size := (s.x b).toNat } }
    else
      (s.wg d (mkCap (s.g a).cursor (s.g a).cursor ((s.g a).cursor + (s.x b).setWidth 32) (s.g a).perms)).next)
/-- cinc (R164). -/
def execCinc (d a b : Reg) (s : State) : Out := s.derive d a (fun g => g.move (s.x b))
/-- cinci (R164). -/
def execCinci (d a : Reg) (i : BitVec 15) (s : State) : Out := s.derive d a (fun g => g.move (imm15 i))
/-- cperm: perms and y[4:0] (R165). -/
def execCperm (d a b : Reg) (s : State) : Out :=
  s.derive d a (fun g => mkCap g.cursor g.base g.limit (g.perms &&& (s.x b).setWidth 5))
/-- csub: the difference of the cursors (R166). -/
def execCsub (d a b : Reg) (s : State) : Out :=
  .next (s.put d ((s.g a).cursor.setWidth 64 - (s.g b).cursor.setWidth 64))
/-- cbase (R166). -/
def execCbase (d a : Reg) (s : State) : Out := .next (s.put d ((s.g a).base.setWidth 64))
/-- climit (R166). -/
def execClimit (d a : Reg) (s : State) : Out := .next (s.put d ((s.g a).limit.setWidth 64))
/-- cgetp (R166). -/
def execCgetp (d a : Reg) (s : State) : Out := .next (s.put d ((s.g a).perms.setWidth 64))
/-- ctag (R166). -/
def execCtag (d a : Reg) (s : State) : Out := .next (s.put d (if (s.g a).tag then 1 else 0))
/-- cuntag: all 128 bits, untagged (R167). -/
def execCuntag (d a : Reg) (s : State) : Out := .next (s.wg d { tag := false, val := (s.g a).val }).next

end Sys2Proof.Machine
end

