-- ==== Sys2Proof/Machine/Control.lean ====
section
/-! DEFINITION. Control transfer (R168, R169). -/

namespace Sys2Proof.Machine

/-- A conditional branch (R168). -/
def State.branch (s : State) (c : Bool) (p : BitVec 15) : Out :=
  .next (if c then s.goto (branchTo s.proc.pc p) else s.next)

/-- beq. -/
def execBeq (a b : Reg) (p : BitVec 15) (s : State) : Out := s.branch (s.x a == s.x b) p
/-- bne. -/
def execBne (a b : Reg) (p : BitVec 15) (s : State) : Out := s.branch (s.x a != s.x b) p
/-- blt, signed. -/
def execBlt (a b : Reg) (p : BitVec 15) (s : State) : Out := s.branch ((s.x a).slt (s.x b)) p
/-- bge, signed. -/
def execBge (a b : Reg) (p : BitVec 15) (s : State) : Out := s.branch ((s.x b).sle (s.x a)) p
/-- bltn, unsigned. -/
def execBltn (a b : Reg) (p : BitVec 15) (s : State) : Out := s.branch ((s.x a).ult (s.x b)) p
/-- bgen, unsigned. -/
def execBgen (a b : Reg) (p : BitVec 15) (s : State) : Out := s.branch ((s.x b).ule (s.x a)) p
/-- bz. -/
def execBz (a : Reg) (p : BitVec 15) (s : State) : Out := s.branch (s.x a == 0) p
/-- bnz. -/
def execBnz (a : Reg) (p : BitVec 15) (s : State) : Out := s.branch (s.x a != 0) p
/-- jal: the return address to gd, then the jump (R169). -/
def execJal (d : Reg) (p : BitVec 20) (s : State) : Out :=
  .next ((s.wx d ((s.proc.pc + 4).setWidth 64)).goto (jumpTo s.proc.pc p))
/-- The target of jalr: (x + i x 4) mod 2^18 with bits [1:0] zero (R169). -/
def jalrTo (x : Word) (i : BitVec 15) : Pc := (x + imm15 i * 4).setWidth 18 &&& 0x3FFFC
/-- jalr: ga is read before gd is written (R169). -/
def execJalr (d a : Reg) (i : BitVec 15) (s : State) : Out :=
  .next ((s.wx d ((s.proc.pc + 4).setWidth 64)).goto (jalrTo (s.x a) i))

end Sys2Proof.Machine
end

