-- ==== Sys2Proof/Machine/Integer.lean ====
section
/-! DEFINITION. Integer instructions: register, word, immediate, upper and constant forms (R155 to R161). -/

namespace Sys2Proof.Machine

/-- 1 or 0. -/
def flagWord (c : Bool) : Word := if c then 1 else 0

/-- A register-register integer instruction writes a function of its two data operands (R155). -/
def State.int2 (s : State) (d a b : Reg) (f : Word → Word → Word) : Out := .next (s.put d (f (s.x a) (s.x b)))

/-- A one-operand integer instruction writes a function of its data operand (R155). -/
def State.int1 (s : State) (d a : Reg) (f : Word → Word) : Out := .next (s.put d (f (s.x a)))

/-- A word form: a function of the low 32 bits, its 32-bit result sign-extended (R156). -/
def wordForm (f : BitVec 32 → BitVec 32 → BitVec 32) (x y : Word) : Word :=
  (f (x.setWidth 32) (y.setWidth 32)).signExtend 64

/-- The signed quotient of R108. -/
def divSigned (x y : Word) : Word := if y = 0 then BitVec.allOnes 64 else x.sdiv y
/-- The unsigned quotient of R108. -/
def divUnsigned (x y : Word) : Word := if y = 0 then BitVec.allOnes 64 else x.udiv y
/-- The signed remainder of R108. -/
def remSigned (x y : Word) : Word := if y = 0 then x else x.srem y
/-- The unsigned remainder of R108. -/
def remUnsigned (x y : Word) : Word := if y = 0 then x else x.umod y

/-- The high half of the signed product: floor(x y / 2^64). -/
def mulHigh (x y : Word) : Word := BitVec.ofInt 64 (x.toInt * y.toInt / 2 ^ 64)
/-- The high half of the unsigned product. -/
def mulHighN (x y : Word) : Word := BitVec.ofNat 64 (x.toNat * y.toNat / 2 ^ 64)

/-- Byte j of the result is byte 7 - j. -/
def byteSwap (x : Word) : Word :=
  x.extractLsb' 0 8 ++ x.extractLsb' 8 8 ++ x.extractLsb' 16 8 ++ x.extractLsb' 24 8 ++ x.extractLsb' 32 8
    ++ x.extractLsb' 40 8 ++ x.extractLsb' 48 8 ++ x.extractLsb' 56 8

/-- The low n bits of a word, sign-extended. -/
def sextTo (n : Nat) (x : Word) : Word := (x.setWidth n).signExtend 64
/-- The low n bits of a word, zero-extended. -/
def zextTo (n : Nat) (x : Word) : Word := (x.setWidth n).setWidth 64

/-- add: x + y. -/
def execAdd (d a b : Reg) (s : State) : Out := s.int2 d a b (· + ·)
/-- sub: x - y. -/
def execSub (d a b : Reg) (s : State) : Out := s.int2 d a b (· - ·)
/-- and. -/
def execAnd (d a b : Reg) (s : State) : Out := s.int2 d a b (· &&& ·)
/-- or. -/
def execOr (d a b : Reg) (s : State) : Out := s.int2 d a b (· ||| ·)
/-- xor. -/
def execXor (d a b : Reg) (s : State) : Out := s.int2 d a b (· ^^^ ·)
/-- andn: x and not y. -/
def execAndn (d a b : Reg) (s : State) : Out := s.int2 d a b (fun x y => x &&& ~~~y)
/-- orn: x or not y. -/
def execOrn (d a b : Reg) (s : State) : Out := s.int2 d a b (fun x y => x ||| ~~~y)
/-- shl: by y mod 64. -/
def execShl (d a b : Reg) (s : State) : Out := s.int2 d a b (fun x y => x <<< (y.toNat % 64))
/-- shr: by y mod 64. -/
def execShr (d a b : Reg) (s : State) : Out := s.int2 d a b (fun x y => x >>> (y.toNat % 64))
/-- sra: by y mod 64. -/
def execSra (d a b : Reg) (s : State) : Out := s.int2 d a b (fun x y => x.sshiftRight (y.toNat % 64))
/-- rol: by y mod 64. -/
def execRol (d a b : Reg) (s : State) : Out := s.int2 d a b (fun x y => x.rotateLeft (y.toNat % 64))
/-- ror: by y mod 64. -/
def execRor (d a b : Reg) (s : State) : Out := s.int2 d a b (fun x y => x.rotateRight (y.toNat % 64))
/-- addw. -/
def execAddw (d a b : Reg) (s : State) : Out := s.int2 d a b (wordForm (· + ·))
/-- subw. -/
def execSubw (d a b : Reg) (s : State) : Out := s.int2 d a b (wordForm (· - ·))
/-- mulw. -/
def execMulw (d a b : Reg) (s : State) : Out := s.int2 d a b (wordForm (· * ·))
/-- shlw: by y mod 32. -/
def execShlw (d a b : Reg) (s : State) : Out := s.int2 d a b (wordForm (fun x y => x <<< (y.toNat % 32)))
/-- shrw: by y mod 32. -/
def execShrw (d a b : Reg) (s : State) : Out := s.int2 d a b (wordForm (fun x y => x >>> (y.toNat % 32)))
/-- sraw: by y mod 32. -/
def execSraw (d a b : Reg) (s : State) : Out := s.int2 d a b (wordForm (fun x y => x.sshiftRight (y.toNat % 32)))
/-- mul. -/
def execMul (d a b : Reg) (s : State) : Out := s.int2 d a b (· * ·)
/-- mulh. -/
def execMulh (d a b : Reg) (s : State) : Out := s.int2 d a b mulHigh
/-- mulhn. -/
def execMulhn (d a b : Reg) (s : State) : Out := s.int2 d a b mulHighN
/-- div, per R108. -/
def execDiv (d a b : Reg) (s : State) : Out := s.int2 d a b divSigned
/-- divn, per R108. -/
def execDivn (d a b : Reg) (s : State) : Out := s.int2 d a b divUnsigned
/-- rem, per R108. -/
def execRem (d a b : Reg) (s : State) : Out := s.int2 d a b remSigned
/-- remn, per R108. -/
def execRemn (d a b : Reg) (s : State) : Out := s.int2 d a b remUnsigned
/-- min, signed. -/
def execMin (d a b : Reg) (s : State) : Out := s.int2 d a b (fun x y => if x.sle y then x else y)
/-- max, signed. -/
def execMax (d a b : Reg) (s : State) : Out := s.int2 d a b (fun x y => if y.sle x then x else y)
/-- minn, unsigned. -/
def execMinn (d a b : Reg) (s : State) : Out := s.int2 d a b (fun x y => if x.ule y then x else y)
/-- maxn, unsigned. -/
def execMaxn (d a b : Reg) (s : State) : Out := s.int2 d a b (fun x y => if y.ule x then x else y)
/-- slt, signed. -/
def execSlt (d a b : Reg) (s : State) : Out := s.int2 d a b (fun x y => flagWord (x.slt y))
/-- sltn, unsigned. -/
def execSltn (d a b : Reg) (s : State) : Out := s.int2 d a b (fun x y => flagWord (x.ult y))
/-- seq. -/
def execSeq (d a b : Reg) (s : State) : Out := s.int2 d a b (fun x y => flagWord (x == y))
/-- clz; 64 for 0. -/
def execClz (d a : Reg) (s : State) : Out := s.int1 d a BitVec.clz
/-- ctz; 64 for 0. -/
def execCtz (d a : Reg) (s : State) : Out := s.int1 d a BitVec.ctz
/-- popc. -/
def execPopc (d a : Reg) (s : State) : Out := s.int1 d a BitVec.cpop
/-- brev. -/
def execBrev (d a : Reg) (s : State) : Out := s.int1 d a BitVec.reverse
/-- bswap. -/
def execBswap (d a : Reg) (s : State) : Out := s.int1 d a byteSwap
/-- sext by width w + 1: the field holds the width less 1 (R138, R157). -/
def execSext (d a : Reg) (w : BitVec 6) (s : State) : Out := s.int1 d a (sextTo (w.toNat + 1))
/-- zext by width w + 1 (R138, R157). -/
def execZext (d a : Reg) (w : BitVec 6) (s : State) : Out := s.int1 d a (zextTo (w.toNat + 1))
/-- csel: x when gc is not zero, else y, as data (R158). -/
def execCsel (d a b c : Reg) (s : State) : Out := .next (s.put d (if s.x c ≠ 0 then s.x a else s.x b))
/-- addi. -/
def execAddi (d a : Reg) (i : BitVec 15) (s : State) : Out := s.int1 d a (· + imm15 i)
/-- andi. -/
def execAndi (d a : Reg) (i : BitVec 15) (s : State) : Out := s.int1 d a (· &&& imm15 i)
/-- ori. -/
def execOri (d a : Reg) (i : BitVec 15) (s : State) : Out := s.int1 d a (· ||| imm15 i)
/-- xori. -/
def execXori (d a : Reg) (i : BitVec 15) (s : State) : Out := s.int1 d a (· ^^^ imm15 i)
/-- slti, signed. -/
def execSlti (d a : Reg) (i : BitVec 15) (s : State) : Out := s.int1 d a (fun x => flagWord (x.slt (imm15 i)))
/-- sltni, unsigned against i mod 2^64. -/
def execSltni (d a : Reg) (i : BitVec 15) (s : State) : Out := s.int1 d a (fun x => flagWord (x.ult (imm15 i)))
/-- shli. -/
def execShli (d a : Reg) (n : BitVec 6) (s : State) : Out := s.int1 d a (· <<< n.toNat)
/-- shri. -/
def execShri (d a : Reg) (n : BitVec 6) (s : State) : Out := s.int1 d a (· >>> n.toNat)
/-- srai. -/
def execSrai (d a : Reg) (n : BitVec 6) (s : State) : Out := s.int1 d a (fun x => x.sshiftRight n.toNat)
/-- lui: sext(imm20) x 2^12 (R160). -/
def execLui (d : Reg) (i : BitVec 20) (s : State) : Out := .next (s.put d (i.signExtend 64 <<< 12))
/-- addpc: (pc + sext(imm20) x 4) mod 2^18 (R160). -/
def execAddpc (d : Reg) (i : BitVec 20) (s : State) : Out := .next (s.put d ((jumpTo s.proc.pc i).setWidth 64))
/-- ldk: a word of the constant window (R161). -/
def execLdk (d : Reg) (k : BitVec 8) (s : State) : Out := .next (s.put d (s.const k))
/-- addk: x plus a word of the constant window (R161). -/
def execAddk (d a : Reg) (k : BitVec 8) (s : State) : Out := .next (s.put d (s.x a + s.const k))

end Sys2Proof.Machine
end

