-- ==== Sys2Proof/Machine/Mask.lean ====
section
/-! DEFINITION. Mask instructions (R196). -/

namespace Sys2Proof.Machine

/-- A mask instruction writes a mask register. -/
def State.mput (s : State) (d : MReg) (v : Word) : Out := .next (s.wm d v).next

/-- The number of 1 bits among the lowest n. -/
def onesBelow (x : Word) : Nat → Nat
  | 0 => 0
  | n + 1 => onesBelow x n + (if x.getLsbD n then 1 else 0)

/-- The index of the lowest 1 bit from bit i on, of n bits; i + n when there is none. -/
def lowestFrom (x : Word) (i : Nat) : Nat → Nat
  | 0 => i
  | n + 1 => if x.getLsbD i then i else lowestFrom x (i + 1) n

/-- mand. -/
def execMand (d a b : MReg) (s : State) : Out := s.mput d (s.m a &&& s.m b)
/-- mor. -/
def execMor (d a b : MReg) (s : State) : Out := s.mput d (s.m a ||| s.m b)
/-- mxor. -/
def execMxor (d a b : MReg) (s : State) : Out := s.mput d (s.m a ^^^ s.m b)
/-- mnot. -/
def execMnot (d a : MReg) (s : State) : Out := s.mput d (~~~ s.m a)
/-- mpop: the number of 1 bits. -/
def execMpop (d : Reg) (a : MReg) (s : State) : Out := .next (s.put d (BitVec.ofNat 64 (onesBelow (s.m a) 64)))
/-- mfst: the index of the lowest 1 bit; 64 when there is none. -/
def execMfst (d : Reg) (a : MReg) (s : State) : Out := .next (s.put d (BitVec.ofNat 64 (lowestFrom (s.m a) 0 64)))
/-- mset. -/
def execMset (d : MReg) (a : Reg) (s : State) : Out := s.mput d (s.x a)
/-- mget. -/
def execMget (d : Reg) (a : MReg) (s : State) : Out := .next (s.put d (s.m a))

end Sys2Proof.Machine
end

