-- ==== Sys2Proof/Machine/Registers.lean ====
section
/-! DEFINITION. The registers of BAR0, of the virtual functions and of the Idhan bus: what each reads as, and the writes
that only change fields (R297, R303 to R305, R307, R308, R313, R315, R317, R325, R327, R350, R354, R356 to R359). -/

namespace Sys2Proof.Machine

/-! Reading. -/

/-- The 8 B word of a list of bytes at an offset. -/
def wordOfBytes (l : List Byte) (off : Nat) : Word := BitVec.ofNat 64 (leField l off 8)

/-- The registers of bring-up, time and resets (R297, R305, R307). -/
def State.upReg (s : State) (o : Nat) : Word :=
  let u := s.up
  match o with
  | 0x00 => Config.revision ++ (0x31574C50 : BitVec 32)
  | 0x08 => Config.serial
  | 0x10 => u.bdladdr
  | 0x18 => u.bdllen.setWidth 64
  | 0x28 => BitVec.ofNat 64 (u.err.toNat * 256 + u.phase.toNat)
  | 0x40 => u.tsrc.setWidth 64
  | 0x48 => u.ptmint
  | 0x60 => u.rgregion.setWidth 64
  | 0x68 => BitVec.ofNat 64 (u.rgerr.toNat * 256 + u.rgphase.toNat)
  | 0x70 => u.mrregion.setWidth 64
  | 0x78 => BitVec.ofNat 64 (u.mrerr.toNat * 256 + u.mrphase.toNat)
  | _ => 0

/-- The registers of a queue block (R308). -/
def QBlock.reg (b : QBlock) (o : Nat) : Word :=
  match o with
  | 0x00 => b.lqbase
  | 0x08 => b.cqbase
  | 0x10 => BitVec.ofNat 64 (b.qsize.toNat + b.fqsize0.toNat * 2 ^ 16 + b.fqsize1.toNat * 2 ^ 24 + (if b.en then 2 ^ 32 else 0))
  | 0x18 => b.lqhd.setWidth 64
  | 0x20 => b.cqtl.setWidth 64
  | 0x28 => b.cqhd.setWidth 64
  | 0x30 => b.fqbase0
  | 0x38 => b.fqbase1
  | 0x40 => b.fqtl1 ++ b.fqtl0
  | 0x48 => b.fqhd1 ++ b.fqhd0
  | 0x58 => BitVec.ofNat 64 ((if b.full0 then 1 else 0) + (if b.full1 then 2 else 0))
  | _ => 0

/-- The registers of a tenant slot's fault ring, as a virtual function shows them (R303). -/
def QBlock.slotReg (b : QBlock) (slot o : Nat) : Word :=
  let r := b.ring slot
  match o with
  | 0x00 => if slot = 0 then b.fqbase0 else b.fqbase1
  | 0x08 => BitVec.ofNat 64 r.2.1
  | 0x10 => r.2.2.1.setWidth 64
  | 0x18 => r.2.2.2.setWidth 64
  | 0x28 => if (if slot = 0 then b.full0 else b.full1) then 1 else 0
  | _ => 0

/-- The record of a partition (R315). -/
def State.partRecord (s : State) (q : Nat) : Nat :=
  let p := s.part q
  if p.state = 0 then 0
  else
    p.regions.toNat + p.t0.toNat * 2 ^ 76 + p.t1.toNat * 2 ^ 80 + (if p.v0 then 2 ^ 84 else 0) + (if p.v1 then 2 ^ 85 else 0)
      + (if p.dual then 2 ^ 86 else 0) + (if p.act then 2 ^ 87 else 0) + p.state.toNat * 2 ^ 88
      + ((regionsOf p.regions).map s.offered).foldl (· + ·) 0 * 2 ^ 102

/-- The receipt that the window shows, if it is one of the last 64 (R325). -/
def State.shownReceipt (s : State) : Option Receipt :=
  s.receipts.find? (fun r => decide (r.rseq = s.ten.rsel) && decide (s.ten.made.toNat < r.rseq.toNat + 64))

/-- The registers of partitions and tenancy, from 0x040_0000 (R315, R317, R325). -/
def State.tenReg (s : State) (o : Nat) : Word :=
  let t := s.ten
  if o < 0x300 then BitVec.ofNat 64 (s.partRecord (o / 16) / 2 ^ (64 * (o / 8 % 2)))
  else if 0x4000 ≤ o then
    match s.shownReceipt with
    | some r => wordOfBytes (r.message ++ r.signature) (o - 0x4000)
    | none => 0
  else
    match o with
    | 0x1000 => t.pcregions.setWidth 64
    | 0x1008 => BitVec.ofNat 64 (t.pcop.toNat + (if t.pcdual then 4 else 0) + t.pctenant.toNat * 8
        + (if t.pckeep then 128 else 0) + t.pcpart.toNat * 256)
    | 0x1010 => t.pcflb
    | 0x1018 => t.pcfll
    | 0x1020 => BitVec.ofNat 64 (t.pcerr.toNat * 256 + t.pcphase.toNat)
    | 0x2000 => t.rhead
    | 0x2008 => t.rsel
    | 0x2010 => match s.shownReceipt with
      | some r => if r.signed then 3 else 1
      | none => 0
    | _ => 0

/-- The reliability registers (R327). -/
def Reliability.reg (r : Reliability) (o : Nat) : Word :=
  match o with
  | 0x00 => r.ckint
  | 0x08 => r.ckmin.setWidth 64
  | 0x10 => r.rotint
  | 0x18 => r.win ++ (BitVec.ofNat 32 (r.ce.toNat * 256 + (if r.scr then 1 else 0)) : BitVec 32)
  | 0x20 => r.mgnlim.setWidth 64
  | 0x28 => r.rrbase
  | 0x30 => BitVec.ofNat 64 (r.rrsize.toNat + (if r.rren then 16 else 0))
  | 0x38 => r.rrtl.setWidth 64
  | 0x40 => r.rrhd.setWidth 64
  | _ => 0

/-- The number of a role (R356). -/
def Role.code : Role → Nat
  | .exposed => 0
  | .spare => 1
  | .screening => 2
  | .retired => 3
  | .lost => 4

/-- The 256 B counter block of a physical tile (R356). -/
def State.tileBlock (s : State) (p : Nat) : List Byte :=
  let t := s.ptile p
  (s.powered p).flatMap (fun w => toBytes 8 w.toNat) ++ toBytes 4 t.margin.toNat ++ toBytes 4 (Config.ringBase p).toNat
    ++ (List.range 8).flatMap (fun c => toBytes 4 (Sparse.get t.ce (c + 1)).toNat)
    ++ toBytes 4 (min (s.ceWindow p).length (2 ^ 32 - 1)) ++ toBytes 4 t.hbmce.toNat ++ toBytes 4 t.uce.toNat ++ toBytes 4 t.scrp.toNat
    ++ toBytes 4 t.scrf.toNat ++ toBytes 4 t.rot.toNat ++ toBytes 8 t.drop.toNat ++ toBytes 8 t.retry.toNat
    ++ toBytes 1 t.role.code ++ List.replicate 111 0

/-- The 128 B of a slot of the retirement log (R359). -/
def State.logSlot (s : State) (n : Nat) : List Byte :=
  match Sparse.get s.health.log n with
  | some r => r.bytes n ++ [0x5A] ++ List.replicate 3 0xFF
  | none => if n = s.health.logCount && !s.openSlot.isEmpty then s.openSlot else List.replicate 128 0xFF

/-- The health registers, from 0x0C0_0000 (R356, R358, R359). -/
def State.healthReg (s : State) (o : Nat) : Word :=
  if o < 6144 * 256 then wordOfBytes (s.tileBlock (o / 256)) (o % 256)
  else if 0x200000 ≤ o && o < 0x300000 then wordOfBytes (s.logSlot ((o - 0x200000) / 128)) (o % 128)
  else if o = 0x300000 then s.health.hstate.setWidth 64
  else if o = 0x300008 then BitVec.ofNat 64 s.health.logCount
  else 0

/-- The link table, from 0x010_0000 (R299, R300). -/
def State.tableReg (s : State) (o : Nat) : Word :=
  if o = 0 then s.linkGen.setWidth 64
  else if 0x20 ≤ o && o < 0x40 then wordOfBytes s.linkDigest (o - 0x20)
  else if 0x40 ≤ o && o < 0x340 then
    BitVec.ofNat 64 (s.regionRecord ((o - 0x40) / 16) / 2 ^ (64 * (o / 8 % 2)))
  else if 0x340 ≤ o && o < 0x340 + 32 * linkCount then
    wordOfBytes (Sparse.get s.links ((o - 0x340) / 32)).bytes (o % 32)
  else 0

/-- The registers of the translation window (R313). -/
def Tenancy.windowReg (t : Tenancy) (o : Nat) : Word :=
  match o with
  | 0x00 => BitVec.ofNat 64 (t.twpart.toNat + t.twvtile.toNat * 256 + t.twtenant.toNat * 2 ^ 24)
  | 0x08 => BitVec.ofNat 64 ((if t.twrefused then 1 else 0) + (if t.twbusy.isSome then 2 else 0) + t.twpage.toNat * 2 ^ 16)
  | _ => 0

/-- What the window shows at an offset. -/
def State.windowEntry (s : State) (o : Nat) : Word :=
  match s.windowVTile with
  | some k => if o / 8 < wellPages then Sparse.get (s.tile k).pt (o / 8) else 0
  | none => 0

/-- The 8 B at an offset of BAR0 of the physical function (R303); in step 1 of bring-up it shows the registers of R297 alone
(R298). Over a link that is not there nothing is read: the 0 here stands for that (log entry 102). -/
def State.bar0 (s : State) (o : Nat) : Word :=
  if !s.hostReaches || s.up.d3 then 0
  else if o < 0x30 then s.upReg o
  else if !s.barOpen then 0
  else if o < 0x1000 then s.upReg o
  else if o < 0x10000 then 0
  else if o < 0x13000 then (Sparse.get s.queues ((o - 0x10000) / 256)).reg (o % 256)
  else if o < 0x100000 then 0
  else if o < 0x200000 then s.tableReg (o - 0x100000)
  else if o < 0x201000 then s.ten.windowReg (o - 0x200000)
  else if o < 0x220000 then 0
  else if o < 0x240000 then s.windowEntry (o - 0x220000)
  else if o < 0x400000 then 0
  else if o < 0x800000 then s.tenReg (o - 0x400000)
  else if o < 0xC00000 then s.rel.reg (o - 0x800000)
  else if o < 0x1000000 then s.healthReg (o - 0xC00000)
  else 0

/-- The tenant slot that a virtual function shows at an offset: of the partition whose number is the 64 B's (R303). -/
def State.vfSlot (s : State) (i o : Nat) : Option Nat :=
  if o / 64 < 48 then (s.part (o / 64)).slotOf i else none

/-- A register of the Idhan bus by its number (R354, R357 to R360). -/
def State.idhanReg (s : State) (n : Nat) : Word :=
  if 0x202 ≤ n && n ≤ 0x221 then
    if s.health.hsel.toNat < 6144 then wordOfBytes (s.tileBlock s.health.hsel.toNat) (8 * (n - 0x202)) else 0
  else if 0x232 ≤ n && n ≤ 0x241 then
    if s.health.lsel.toNat < 8192 then wordOfBytes (s.logSlot s.health.lsel.toNat) (8 * (n - 0x232)) else 0
  else
    match n with
    | 0x101 => s.ev.ports.setWidth 64
    | 0x102 => s.ev.serial
    | 0x103 => s.ev.est
    | 0x104 => BitVec.ofNat 64 (s.ev.err.toNat * 256 + (if s.ev.late then 16 else 0) + s.ev.step.toNat)
    | 0x200 => s.health.hstate.setWidth 64
    | 0x201 => s.health.hsel
    | 0x230 => BitVec.ofNat 64 s.health.logCount
    | 0x231 => s.health.lsel
    | _ => 0

/-- A register of a space by its place. Of configuration space the model has two fields: the enable of the virtual functions
at 0, and the power state at 1 (R302, log entry 102). -/
def State.readReg (s : State) (b : RegSpace) (o : Nat) : Word :=
  match b with
  | .pf => s.bar0 o
  | .vf i =>
    match (if s.up.vfs && s.hostReaches then s.vfSlot i o else none) with
    | some slot => (Sparse.get s.queues (o / 64)).slotReg slot (o % 64)
    | none => 0
  | .idhan => s.idhanReg o
  | .config =>
    if !s.hostReaches then 0
    else if o = 0 then (if s.up.vfs then 1 else 0) else if o = 1 then (if s.up.d3 then 3 else 0) else 0

/-- A space of BAR0 takes 4 B accesses too. -/
def inBar : RegSpace → Bool
  | .pf | .vf _ => true
  | .idhan | .config => false

/-- What an access reads at n: the 8 B of a register, or with `four` the half at n (R304); an access that is not aligned has
no meaning there, and 0 stands for what it reads. -/
def State.readAccess (s : State) (b : RegSpace) (four : Bool) (n : Nat) : Word :=
  if !inBar b then s.readReg b n
  else if n % (if four then 4 else 8) ≠ 0 then 0
  else if four then ((s.readReg b (n / 8 * 8)).extractLsb' (32 * (n / 4 % 2)) 32).setWidth 64
  else s.readReg b n

/-- A byte of a summary; before its first write only the serial stands there, which is fused (R355). -/
def summaryByte (l : List Byte) (a : Nat) : Byte :=
  if l.isEmpty && 8 ≤ a && a < 16 then (toBytes 8 Config.serial.toNat).getD (a - 8) 0 else l.getD a 0

/-- A byte of the identity EEPROM (R355): the record begins with the serial and the part name, at the widths that they have
in the summary (log entry 104); its other bytes are the factory's. -/
def State.eeprom (s : State) (a : Nat) : Byte :=
  if a < 0x80 then summaryByte s.health.eeprom0 a
  else if a < 0x100 then summaryByte s.health.eeprom1 (a - 0x80)
  else if a < 0x118 then (toBytes 8 Config.serial.toNat ++ partName ++ List.replicate 10 0).getD (a - 0x100) 0
  else if a < 0x2030 then Config.identityByte a
  else 0

/-! Writing. -/

/-- An address with its low bits zero. -/
def lowZero (v : Word) (n : Nat) : Word := BitVec.ofNat 64 (v.toNat / 2 ^ n * 2 ^ n)

/-- The registers of bring-up and time that hold what is written. -/
def BringUp.write (u : BringUp) (o : Nat) (v : Word) : BringUp :=
  match o with
  | 0x10 => { u with bdladdr := lowZero v 6 }
  | 0x18 => { u with bdllen := v.setWidth 32 }
  | 0x40 => { u with tsrc := v.setWidth 2 }
  | 0x48 => { u with ptmint := v }
  | _ => u

/-- The ring of a tenant slot is empty. -/
def QBlock.ringEmpty (b : QBlock) (slot : Nat) : Bool := decide ((b.ring slot).2.2.1 = (b.ring slot).2.2.2)

/-- No command of a queue is unfetched, waits to begin or to complete, and no record waits to be written. -/
def QBlock.idle (b : QBlock) : Bool := decide (b.tail = b.lqhd) && b.fetched.isEmpty && b.begun.isEmpty && b.done.isEmpty

/-- The base of a slot's ring: written only while the ring is empty. -/
def QBlock.setBase (b : QBlock) (slot : Nat) (v : Word) : QBlock :=
  if !b.ringEmpty slot then b
  else if slot = 0 then { b with fqbase0 := lowZero v 6 }
  else { b with fqbase1 := lowZero v 6 }

/-- The size of a slot's ring: written only while the ring is empty. -/
def QBlock.setSize (b : QBlock) (slot : Nat) (v : BitVec 8) : QBlock :=
  if !b.ringEmpty slot then b
  else if slot = 0 then { b with fqsize0 := v }
  else { b with fqsize1 := v }

/-- The head of a slot's ring. -/
def QBlock.setHead (b : QBlock) (slot : Nat) (v : BitVec 32) : QBlock :=
  if slot = 0 then { b with fqhd0 := v } else { b with fqhd1 := v }

/-- qcfg: the enable changes only while the queue is idle. -/
def QBlock.setCfg (b : QBlock) (v : Word) : QBlock :=
  let c := (({ b with qsize := v.setWidth 16 } : QBlock).setSize 0 (v.extractLsb' 16 8)).setSize 1 (v.extractLsb' 24 8)
  { c with en := if b.idle then v.getLsbD 32 else b.en }

/-- A queue block with one of its registers written. -/
def QBlock.write (b : QBlock) (o : Nat) (v : Word) : QBlock :=
  match o with
  | 0x00 => { b with lqbase := lowZero v 6 }
  | 0x08 => { b with cqbase := lowZero v 4 }
  | 0x10 => b.setCfg v
  | 0x28 => { b with cqhd := v.setWidth 32 }
  | 0x30 => b.setBase 0 v
  | 0x38 => b.setBase 1 v
  | 0x48 => (b.setHead 0 (v.setWidth 32)).setHead 1 (v.extractLsb' 32 32)
  | _ => b

/-- A virtual function's registers of a slot written. -/
def QBlock.writeSlot (b : QBlock) (slot o : Nat) (v : Word) : QBlock :=
  match o with
  | 0x00 => b.setBase slot v
  | 0x08 => b.setSize slot (v.setWidth 8)
  | 0x18 => b.setHead slot (v.setWidth 32)
  | _ => b

/-- The registers of a partition change and of the receipt window written. -/
def State.writeTen (s : State) (o : Nat) (v : Word) : State :=
  if o = 0x2008 then s.updTen (fun t => { t with rsel := v })
  else if s.ten.changing then s
  else
    match o with
    | 0x1000 => s.updTen (fun t => { t with pcregions := v.setWidth 48 })
    | 0x1008 => s.writePcop v
    | 0x1010 => s.updTen (fun t => { t with pcflb := lowZero v 6 })
    | 0x1018 => s.updTen (fun t => { t with pcfll := v })
    | _ => s

/-- The registers of the translation window written; refused is cleared by writing 1. -/
def Tenancy.writeWindow (t : Tenancy) (o : Nat) (v : Word) : Tenancy :=
  match o with
  | 0x00 => { t with twtenant := v.extractLsb' 24 4, twvtile := v.extractLsb' 8 16, twpart := v.setWidth 8 }
  | 0x08 => { t with twrefused := t.twrefused && !v.getLsbD 0 }
  | _ => t

/-- The reliability registers written. -/
def Reliability.write (r : Reliability) (o : Nat) (v : Word) : Reliability :=
  match o with
  | 0x00 => { r with ckint := v }
  | 0x08 => { r with ckmin := v.setWidth 32 }
  | 0x10 => { r with rotint := v }
  | 0x18 => { r with win := v.extractLsb' 32 32, ce := v.extractLsb' 8 8, scr := v.getLsbD 0 }
  | 0x20 => { r with mgnlim := v.setWidth 32 }
  | 0x28 => { r with rrbase := lowZero v 6 }
  | 0x30 => { r with rren := v.getLsbD 4, rrsize := v.setWidth 4 }
  | 0x40 => { r with rrhd := v.setWidth 32 }
  | _ => r

/-- A write of a reliability register; a new retpol is applied to the errors counted so far. -/
def State.writeRel (s : State) (o : Nat) (v : Word) : State :=
  let t := s.updRel (fun r => r.write o v)
  if o = 0x18 then ((List.range 6144).foldl State.retireByErrors t).noted s else t

/-- A queue's register written; a queue that becomes enabled fetches. A write of fans answers a record. -/
def State.writeQueue (s : State) (q o : Nat) (v : Word) : State :=
  if o = 0x50 then s.writeFans q none v else
  let t := s.updQueue q (fun b => b.write o v)
  if o = 0x10 && !(Sparse.get s.queues q).en then t.fetchQueue q else t

/-- A write of the 8 B at an offset of BAR0 of the physical function. -/
def State.writeBar0 (s : State) (o : Nat) (v : Word) : State :=
  if !s.hostReaches || s.up.d3 then s
  else if o = 0x20 then s.writeGo v
  else if o < 0x30 then s.updUp (fun u => u.write o v)
  else if !s.barOpen then s
  else if o = 0x50 then s.writeTset v
  else if o = 0x60 then s.writeRgrst v
  else if o = 0x70 then s.writeMrel v
  else if o < 0x1000 then s.updUp (fun u => u.write o v)
  else if 0x10000 ≤ o && o < 0x13000 then s.writeQueue ((o - 0x10000) / 256) (o % 256) v
  else if 0x200000 ≤ o && o < 0x201000 then s.updTen (fun t => t.writeWindow (o - 0x200000) v)
  else if 0x400000 ≤ o && o < 0x800000 then s.writeTen (o - 0x400000) v
  else if 0x800000 ≤ o && o < 0xC00000 then s.writeRel (o - 0x800000) v
  else s

/-- A write of a virtual function's 64 B of a partition: its registers, or an answer for its own tenant (R303). -/
def State.writeVf (s : State) (i o : Nat) (v : Word) : State :=
  match (if 1 ≤ i && i ≤ 15 && s.up.vfs && s.hostReaches then s.vfSlot i o else none) with
  | some slot =>
    if o % 64 = 0x20 then s.writeFans (o / 64) (some i) v
    else s.updQueue (o / 64) (fun b => b.writeSlot slot (o % 64) v)
  | none => s

/-- A write of an 8 B register of a space. The virtual functions are enabled only at phase 7; the Idhan bus has the registers
of an eviction, and selects a tile and a log slot. -/
def State.writeReg (s : State) (b : RegSpace) (o : Nat) (v : Word) : State :=
  match b with
  | .pf => s.writeBar0 o v
  | .vf i => s.writeVf i o v
  | .config =>
    if !s.hostReaches then s
    else if o = 0 then s.updUp (fun u => { u with vfs := v.getLsbD 0 && decide (u.phase = 7) })
    else if o = 1 then s.updUp (fun u => { u with d3 := decide (v.setWidth 2 = (3 : BitVec 2)) })
    else s
  | .idhan =>
    if o = 0x100 then s.evControl v
    else if o = 0x101 then s.evTarget false v
    else if o = 0x102 then s.evTarget true v
    else if o = 0x201 then s.updHealth (fun h => { h with hsel := v })
    else if o = 0x231 then s.updHealth (fun h => { h with lsel := v })
    else s

/-- What a 4 B write leaves in the half that it does not cover: a field cleared by writing 1 is not rewritten, a field that
reads as zero is written as zero, and the half of the counter stays as it is (log entry 100). -/
def State.keptHalf (s : State) (b : RegSpace) (o : Nat) : Word :=
  if b = .pf && o = 0x200008 then 0 else if b = .pf && o = 0x50 then s.time else s.readReg b o

/-- REGISTER_WRITE: a write of a register at n, of 8 B, or with ok of the 4 B at n (R304). -/
def execRegisterWrite (s : State) : Out :=
  let n := s.arg.n
  let b := s.arg.space
  let four := s.arg.ok && inBar b
  let o := if inBar b then n / 8 * 8 else n
  if inBar b && n % (if four then 4 else 8) ≠ 0 then .next s
  else .next (s.writeReg b o (halfWrite (s.keptHalf b o) four (n / 4 % 2) s.arg.v))

end Sys2Proof.Machine
end

