-- ==== Sys2Proof/Machine/VecMem.lean ====
section
/-! DEFINITION. Vector loads and stores: whole registers, strided, gather and scatter (R191, R192). -/

namespace Sys2Proof.Machine

/-- The 64 bytes that a vector load reads, and the state after them. -/
def State.readVec (s : State) (a : Nat) : State × Vec :=
  ((s.readVector (octets a)).1, BitVec.ofNat 512 (ofBytes (s.readVector (octets a)).2.flatten))

/-- vld (R191). -/
def execVld (d a : Reg) (o : BitVec 5) (m : MReg) (t : LaneTy) (s : State) : Out :=
  match s.check (vldAccess (s.g a) a o false) with
  | .error e => .next (s.raise e)
  | .ok addr =>
    s.vector [] [d] (fun z =>
      let r := (z.walkFor z.cur.vt addr 64).readVec addr
      r.1.wv d (mergeLanes (s.m m) (laneBits t) (z.proc.rv d) (lane r.2 (laneBits t))))

/-- vst: the bytes of enabled lanes only (R191). -/
def execVst (d a : Reg) (o : BitVec 5) (m : MReg) (t : LaneTy) (s : State) : Out :=
  match s.check (vldAccess (s.g a) a o true) with
  | .error e => .next (s.raise e)
  | .ok addr =>
    s.vector [d] [] (fun z =>
      (z.walkFor z.cur.vt addr 64).writeVector
        (octetWrites (laneBits t) (s.v d) addr (enabledLanes (s.m m) (laneBits t))))

/-- The walks the elements start. -/
def State.walkElems (s : State) (n : Nat) : List (Nat × Nat) → State
  | [] => s
  | (_, a) :: r => (s.walkFor s.cur.vt a n).walkElems n r

/-- The elements read at their places, one event each, and the state after them (R74). -/
def State.readElems (s : State) (w : Nat) (l : List (Nat × Nat)) : State × List (List Byte) :=
  s.readVector (elemReads w l)

/-- The elements read, in their lanes. -/
def gathered (w : Nat) (old : Vec) (l : List (Nat × Nat)) (bytes : List (List Byte)) : Vec :=
  pack w ((List.range (512 / w)).map (fun i =>
    match (l.zip bytes).find? (fun e => e.1.1 == i) with
    | some e => ofBytes e.2
    | none => lane old w i))

/-- An element load: every enabled element is checked before any is moved; `pre` names the offset register (R192). -/
def State.elemLoad (s : State) (d a : Reg) (m : MReg) (t : LaneTy) (pre : List Reg) (off : Nat → Int) : Out :=
  match s.elemPlaces (fun i => elemAccess (s.g a) a (laneBits t) (off i) false) (enabledLanes (s.m m) (laneBits t)) with
  | .error e => .next (s.raise e)
  | .ok l =>
    s.vector pre [d] (fun z =>
      let r := (z.walkElems (laneBits t / 8) l).readElems (laneBits t) l
      r.1.wv d (gathered (laneBits t) (z.proc.rv d) l r.2))

/-- An element store: the higher lane's bytes are left where elements overlap (R192). -/
def State.elemStore (s : State) (d a : Reg) (m : MReg) (t : LaneTy) (pre : List Reg) (off : Nat → Int) : Out :=
  match s.elemPlaces (fun i => elemAccess (s.g a) a (laneBits t) (off i) true) (enabledLanes (s.m m) (laneBits t)) with
  | .error e => .next (s.raise e)
  | .ok l =>
    s.vector (pre ++ [d]) [] (fun z =>
      (z.walkElems (laneBits t / 8) l).writeVector (elemWrites (laneBits t) (s.v d) l))

/-- vlds. -/
def execVlds (d a b : Reg) (m : MReg) (t : LaneTy) (s : State) : Out :=
  s.elemLoad d a m t [] (fun i => (s.x b).toInt * i)
/-- vsts. -/
def execVsts (d a b : Reg) (m : MReg) (t : LaneTy) (s : State) : Out :=
  s.elemStore d a m t [] (fun i => (s.x b).toInt * i)
/-- vgat. -/
def execVgat (d a b : Reg) (m : MReg) (t : LaneTy) (s : State) : Out :=
  match s.offsetFault a b m t false with
  | some e => .next (s.raise e)
  | none => s.elemLoad d a m t [b] (laneOffset (s.v b) t)
/-- vsct. -/
def execVsct (d a b : Reg) (m : MReg) (t : LaneTy) (s : State) : Out :=
  match s.offsetFault a b m t true with
  | some e => .next (s.raise e)
  | none => s.elemStore d a m t [b] (laneOffset (s.v b) t)

end Sys2Proof.Machine
end

