-- ==== Sys2Proof/Machine/Rep.lean ====
section
/-! DEFINITION. rep: the repeated word, its advancing fields and the count (R143, R197, R198). -/

namespace Sys2Proof.Machine

/-- The meaning of a B-pipe instruction other than rep, as an iteration executes it; no other instruction is one. -/
def bExec (i : Instr) (s : State) : Out :=
  match i with
  | .fadd d a b w => execFadd d a b w s
  | .fsub d a b w => execFsub d a b w s
  | .fmul d a b w => execFmul d a b w s
  | .fdiv d a b w => execFdiv d a b w s
  | .fsqrt d a w => execFsqrt d a w s
  | .fma d a b c w => execFma d a b c w s
  | .fms d a b c w => execFms d a b c w s
  | .fnma d a b c w => execFnma d a b c w s
  | .fnms d a b c w => execFnms d a b c w s
  | .fmin d a b w => execFmin d a b w s
  | .fmax d a b w => execFmax d a b w s
  | .fsgnJ d a b w => execFsgnJ d a b w s
  | .fsgnN d a b w => execFsgnN d a b w s
  | .fsgnX d a b w => execFsgnX d a b w s
  | .fclass d a w => execFclass d a w s
  | .fcmpEq d a b w => execFcmpEq d a b w s
  | .fcmpLt d a b w => execFcmpLt d a b w s
  | .fcmpLe d a b w => execFcmpLe d a b w s
  | .fcvt d a t u r => execFcvt d a t u r s
  | .fmvk d k w => execFmvk d k w s
  | .vadd d a b m t => execVadd d a b m t s
  | .vsub d a b m t => execVsub d a b m t s
  | .vmul d a b m t => execVmul d a b m t s
  | .vfma d a b m t => execVfma d a b m t s
  | .vfms d a b m t => execVfms d a b m t s
  | .vmin d a b m t => execVmin d a b m t s
  | .vmax d a b m t => execVmax d a b m t s
  | .vdot d a b m t => execVdot d a b m t s
  | .vand d a b m t => execVand d a b m t s
  | .vor d a b m t => execVor d a b m t s
  | .vxor d a b m t => execVxor d a b m t s
  | .vandn d a b m t => execVandn d a b m t s
  | .vshl d a b m t => execVshl d a b m t s
  | .vshr d a b m t => execVshr d a b m t s
  | .vsra d a b m t => execVsra d a b m t s
  | .vsel d a b m t => execVsel d a b m t s
  | .vabs d a m t => execVabs d a m t s
  | .vneg d a m t => execVneg d a m t s
  | .vexp2 d a m t => execVexp2 d a m t s
  | .vlog2 d a m t => execVlog2 d a m t s
  | .vrcp d a m t => execVrcp d a m t s
  | .vrsq d a m t => execVrsq d a m t s
  | .vsqrt d a m t => execVsqrt d a m t s
  | .vrng d m t => execVrng d m t s
  | .vcmpEq d a b m t => execVcmpEq d a b m t s
  | .vcmpNe d a b m t => execVcmpNe d a b m t s
  | .vcmpLt d a b m t => execVcmpLt d a b m t s
  | .vcmpLe d a b m t => execVcmpLe d a b m t s
  | .vredSum d a m t => execVredSum d a m t s
  | .vredMin d a m t => execVredMin d a m t s
  | .vredMax d a m t => execVredMax d a m t s
  | .vld d a o m t => execVld d a o m t s
  | .vst d a o m t => execVst d a o m t s
  | .vlds d a b m t => execVlds d a b m t s
  | .vsts d a b m t => execVsts d a b m t s
  | .vgat d a b m t => execVgat d a b m t s
  | .vsct d a b m t => execVsct d a b m t s
  | .vbcast d a m t => execVbcast d a m t s
  | .vext d a b t => execVext d a b t s
  | .vins d a b m t => execVins d a b m t s
  | .vperm d a b m t => execVperm d a b m t s
  | .vcvt d a m t u r => execVcvt d a m t u r s
  | .vmxq d a t => execVmxq d a t s
  | .vmxd d b t => execVmxd d b t s
  | .mand d a b => execMand d a b s
  | .mor d a b => execMor d a b s
  | .mxor d a b => execMxor d a b s
  | .mnot d a => execMnot d a s
  | .mpop d a => execMpop d a s
  | .mfst d a => execMfst d a s
  | .mset d a => execMset d a s
  | .mget d a => execMget d a s
  | .pbindIn a b p => execPbindIn a b p s
  | .pbindOut a b p => execPbindOut a b p s
  | .pdrain p => execPdrain p s
  | .pstat d p => execPstat d p s
  | .pfree p => execPfree p s
  | .mclaim c h => execMclaim c h s
  | .mfree c => execMfree c s
  | .mzero c => execMzero c s
  | .mld c a b => execMld c a b s
  | .mst c a b x t => execMst c a b x t s
  | .mma c a b x t => execMma c a b x t s
  | .mwait c => execMwait c s
  | .mstat c d => execMstat c d s
  | .cpy d a b c => execCpy d a b c s
  | .cpyt d a b c => execCpyt d a b c s
  | .cpyr d a b c t o => execCpyr d a b c t o s
  | .cpyxOut d a b c => execCpyxOut d a b c s
  | .cpyxIn d a b c => execCpyxIn d a b c s
  | .cwait a => execCwait a s
  | .cpoll d a => execCpoll d a s
  | .cabort a => execCabort a s
  | _ => .next s

/-- What follows an iteration: the count update when the repeated instruction has completed, the record of the rep when
it waits; a fault leaves the pc at the rep. -/
def State.repStep (gc : Reg) (pc : Pc) (old : Word) (s : State) : State :=
  s.updProc (fun p =>
    if p.pc = pc + 4 then { p with pc := pc }.repDone gc old
    else if p.st = .blocked then { p with wait := { p.wait with rep := some gc } }
    else p)

/-- rep: one iteration (R197). -/
def execRep (a : Reg) (k : BitVec 3) (s : State) : Out :=
  let w := s.here.fetchNext s.cur.who
  let old := s.x a
  let n := old.toNat / 2 ^ 32
  if !repeatable w then .next (s.illegal (wordOf (.rep a k)))
  else if (old.setWidth 32 : BitVec 32) = 0 then .next (s.goto (s.proc.pc + 8))
  else if repOver w k n then .next (s.raise { code := codeRepRange, aux := BitVec.ofNat 64 n })
  else
    match decode (repWord w k n) with
    | .error _ => .next (s.illegal (repWord w k n))
    | .ok i =>
      match bExec i s with
      | .next t => .next (t.repStep a s.proc.pc old)
      | o => o

end Sys2Proof.Machine
end

