-- ==== Sys2Proof/Machine/Dispatch.lean ====
section
/-! DEFINITION. The dispatch: one arm for each constructor of Instr. -/

namespace Sys2Proof.Machine

def exec (i : Instr) (s : State) : Host.Outcome State Fault Refusal :=
  match i with
  | .add d a b => Sys2Proof.Machine.execAdd d a b s
  | .sub d a b => Sys2Proof.Machine.execSub d a b s
  | .and d a b => Sys2Proof.Machine.execAnd d a b s
  | .or d a b => Sys2Proof.Machine.execOr d a b s
  | .xor d a b => Sys2Proof.Machine.execXor d a b s
  | .andn d a b => Sys2Proof.Machine.execAndn d a b s
  | .orn d a b => Sys2Proof.Machine.execOrn d a b s
  | .shl d a b => Sys2Proof.Machine.execShl d a b s
  | .shr d a b => Sys2Proof.Machine.execShr d a b s
  | .sra d a b => Sys2Proof.Machine.execSra d a b s
  | .rol d a b => Sys2Proof.Machine.execRol d a b s
  | .ror d a b => Sys2Proof.Machine.execRor d a b s
  | .addw d a b => Sys2Proof.Machine.execAddw d a b s
  | .subw d a b => Sys2Proof.Machine.execSubw d a b s
  | .mulw d a b => Sys2Proof.Machine.execMulw d a b s
  | .shlw d a b => Sys2Proof.Machine.execShlw d a b s
  | .shrw d a b => Sys2Proof.Machine.execShrw d a b s
  | .sraw d a b => Sys2Proof.Machine.execSraw d a b s
  | .mul d a b => Sys2Proof.Machine.execMul d a b s
  | .mulh d a b => Sys2Proof.Machine.execMulh d a b s
  | .mulhn d a b => Sys2Proof.Machine.execMulhn d a b s
  | .div d a b => Sys2Proof.Machine.execDiv d a b s
  | .divn d a b => Sys2Proof.Machine.execDivn d a b s
  | .rem d a b => Sys2Proof.Machine.execRem d a b s
  | .remn d a b => Sys2Proof.Machine.execRemn d a b s
  | .min d a b => Sys2Proof.Machine.execMin d a b s
  | .max d a b => Sys2Proof.Machine.execMax d a b s
  | .minn d a b => Sys2Proof.Machine.execMinn d a b s
  | .maxn d a b => Sys2Proof.Machine.execMaxn d a b s
  | .slt d a b => Sys2Proof.Machine.execSlt d a b s
  | .sltn d a b => Sys2Proof.Machine.execSltn d a b s
  | .seq d a b => Sys2Proof.Machine.execSeq d a b s
  | .clz d a => Sys2Proof.Machine.execClz d a s
  | .ctz d a => Sys2Proof.Machine.execCtz d a s
  | .popc d a => Sys2Proof.Machine.execPopc d a s
  | .brev d a => Sys2Proof.Machine.execBrev d a s
  | .bswap d a => Sys2Proof.Machine.execBswap d a s
  | .sext d a w => Sys2Proof.Machine.execSext d a w s
  | .zext d a w => Sys2Proof.Machine.execZext d a w s
  | .csel d a b c => Sys2Proof.Machine.execCsel d a b c s
  | .addi d a n => Sys2Proof.Machine.execAddi d a n s
  | .andi d a n => Sys2Proof.Machine.execAndi d a n s
  | .ori d a n => Sys2Proof.Machine.execOri d a n s
  | .xori d a n => Sys2Proof.Machine.execXori d a n s
  | .shli d a n => Sys2Proof.Machine.execShli d a n s
  | .shri d a n => Sys2Proof.Machine.execShri d a n s
  | .srai d a n => Sys2Proof.Machine.execSrai d a n s
  | .slti d a n => Sys2Proof.Machine.execSlti d a n s
  | .sltni d a n => Sys2Proof.Machine.execSltni d a n s
  | .lui d n => Sys2Proof.Machine.execLui d n s
  | .addpc d n => Sys2Proof.Machine.execAddpc d n s
  | .ldk d k => Sys2Proof.Machine.execLdk d k s
  | .addk d a k => Sys2Proof.Machine.execAddk d a k s
  | .cbnd d a b => Sys2Proof.Machine.execCbnd d a b s
  | .cinc d a b => Sys2Proof.Machine.execCinc d a b s
  | .cperm d a b => Sys2Proof.Machine.execCperm d a b s
  | .cbase d a => Sys2Proof.Machine.execCbase d a s
  | .climit d a => Sys2Proof.Machine.execClimit d a s
  | .cgetp d a => Sys2Proof.Machine.execCgetp d a s
  | .ctag d a => Sys2Proof.Machine.execCtag d a s
  | .cuntag d a => Sys2Proof.Machine.execCuntag d a s
  | .csub d a b => Sys2Proof.Machine.execCsub d a b s
  | .cinci d a n => Sys2Proof.Machine.execCinci d a n s
  | .beq a b p => Sys2Proof.Machine.execBeq a b p s
  | .bne a b p => Sys2Proof.Machine.execBne a b p s
  | .blt a b p => Sys2Proof.Machine.execBlt a b p s
  | .bge a b p => Sys2Proof.Machine.execBge a b p s
  | .bltn a b p => Sys2Proof.Machine.execBltn a b p s
  | .bgen a b p => Sys2Proof.Machine.execBgen a b p s
  | .bz a p => Sys2Proof.Machine.execBz a p s
  | .bnz a p => Sys2Proof.Machine.execBnz a p s
  | .jal d p => Sys2Proof.Machine.execJal d p s
  | .jalr d a n => Sys2Proof.Machine.execJalr d a n s
  | .ldb d a n => Sys2Proof.Machine.execLdb d a n s
  | .ldbn d a n => Sys2Proof.Machine.execLdbn d a n s
  | .ldh d a n => Sys2Proof.Machine.execLdh d a n s
  | .ldhn d a n => Sys2Proof.Machine.execLdhn d a n s
  | .ldw d a n => Sys2Proof.Machine.execLdw d a n s
  | .ldwn d a n => Sys2Proof.Machine.execLdwn d a n s
  | .ldd d a n => Sys2Proof.Machine.execLdd d a n s
  | .ldc d a n => Sys2Proof.Machine.execLdc d a n s
  | .stb d a n => Sys2Proof.Machine.execStb d a n s
  | .sth d a n => Sys2Proof.Machine.execSth d a n s
  | .stw d a n => Sys2Proof.Machine.execStw d a n s
  | .std d a n => Sys2Proof.Machine.execStd d a n s
  | .stc d a n => Sys2Proof.Machine.execStc d a n s
  | .amoadd d a b z => Sys2Proof.Machine.execAmoadd d a b z s
  | .amoand d a b z => Sys2Proof.Machine.execAmoand d a b z s
  | .amoor d a b z => Sys2Proof.Machine.execAmoor d a b z s
  | .amoxor d a b z => Sys2Proof.Machine.execAmoxor d a b z s
  | .amomin d a b z => Sys2Proof.Machine.execAmomin d a b z s
  | .amomax d a b z => Sys2Proof.Machine.execAmomax d a b z s
  | .amominn d a b z => Sys2Proof.Machine.execAmominn d a b z s
  | .amomaxn d a b z => Sys2Proof.Machine.execAmomaxn d a b z s
  | .amoswp d a b z => Sys2Proof.Machine.execAmoswp d a b z s
  | .cas d a b z => Sys2Proof.Machine.execCas d a b z s
  | .fadd d a b w => Sys2Proof.Machine.execFadd d a b w s
  | .fsub d a b w => Sys2Proof.Machine.execFsub d a b w s
  | .fmul d a b w => Sys2Proof.Machine.execFmul d a b w s
  | .fdiv d a b w => Sys2Proof.Machine.execFdiv d a b w s
  | .fsqrt d a w => Sys2Proof.Machine.execFsqrt d a w s
  | .fma d a b c w => Sys2Proof.Machine.execFma d a b c w s
  | .fms d a b c w => Sys2Proof.Machine.execFms d a b c w s
  | .fnma d a b c w => Sys2Proof.Machine.execFnma d a b c w s
  | .fnms d a b c w => Sys2Proof.Machine.execFnms d a b c w s
  | .fmin d a b w => Sys2Proof.Machine.execFmin d a b w s
  | .fmax d a b w => Sys2Proof.Machine.execFmax d a b w s
  | .fsgnJ d a b w => Sys2Proof.Machine.execFsgnJ d a b w s
  | .fsgnN d a b w => Sys2Proof.Machine.execFsgnN d a b w s
  | .fsgnX d a b w => Sys2Proof.Machine.execFsgnX d a b w s
  | .fclass d a w => Sys2Proof.Machine.execFclass d a w s
  | .fcmpEq d a b w => Sys2Proof.Machine.execFcmpEq d a b w s
  | .fcmpLt d a b w => Sys2Proof.Machine.execFcmpLt d a b w s
  | .fcmpLe d a b w => Sys2Proof.Machine.execFcmpLe d a b w s
  | .fcvt d a t y r => Sys2Proof.Machine.execFcvt d a t y r s
  | .fmvk d k w => Sys2Proof.Machine.execFmvk d k w s
  | .vadd d a b m t => Sys2Proof.Machine.execVadd d a b m t s
  | .vsub d a b m t => Sys2Proof.Machine.execVsub d a b m t s
  | .vmul d a b m t => Sys2Proof.Machine.execVmul d a b m t s
  | .vfma d a b m t => Sys2Proof.Machine.execVfma d a b m t s
  | .vfms d a b m t => Sys2Proof.Machine.execVfms d a b m t s
  | .vmin d a b m t => Sys2Proof.Machine.execVmin d a b m t s
  | .vmax d a b m t => Sys2Proof.Machine.execVmax d a b m t s
  | .vdot d a b m t => Sys2Proof.Machine.execVdot d a b m t s
  | .vand d a b m t => Sys2Proof.Machine.execVand d a b m t s
  | .vor d a b m t => Sys2Proof.Machine.execVor d a b m t s
  | .vxor d a b m t => Sys2Proof.Machine.execVxor d a b m t s
  | .vandn d a b m t => Sys2Proof.Machine.execVandn d a b m t s
  | .vshl d a b m t => Sys2Proof.Machine.execVshl d a b m t s
  | .vshr d a b m t => Sys2Proof.Machine.execVshr d a b m t s
  | .vsra d a b m t => Sys2Proof.Machine.execVsra d a b m t s
  | .vsel d a b m t => Sys2Proof.Machine.execVsel d a b m t s
  | .vabs d a m t => Sys2Proof.Machine.execVabs d a m t s
  | .vneg d a m t => Sys2Proof.Machine.execVneg d a m t s
  | .vexp2 d a m t => Sys2Proof.Machine.execVexp2 d a m t s
  | .vlog2 d a m t => Sys2Proof.Machine.execVlog2 d a m t s
  | .vrcp d a m t => Sys2Proof.Machine.execVrcp d a m t s
  | .vrsq d a m t => Sys2Proof.Machine.execVrsq d a m t s
  | .vsqrt d a m t => Sys2Proof.Machine.execVsqrt d a m t s
  | .vrng d m t => Sys2Proof.Machine.execVrng d m t s
  | .vcmpEq d a b m t => Sys2Proof.Machine.execVcmpEq d a b m t s
  | .vcmpNe d a b m t => Sys2Proof.Machine.execVcmpNe d a b m t s
  | .vcmpLt d a b m t => Sys2Proof.Machine.execVcmpLt d a b m t s
  | .vcmpLe d a b m t => Sys2Proof.Machine.execVcmpLe d a b m t s
  | .vredSum d a m t => Sys2Proof.Machine.execVredSum d a m t s
  | .vredMin d a m t => Sys2Proof.Machine.execVredMin d a m t s
  | .vredMax d a m t => Sys2Proof.Machine.execVredMax d a m t s
  | .vld d a o m t => Sys2Proof.Machine.execVld d a o m t s
  | .vst d a o m t => Sys2Proof.Machine.execVst d a o m t s
  | .vlds d a b m t => Sys2Proof.Machine.execVlds d a b m t s
  | .vsts d a b m t => Sys2Proof.Machine.execVsts d a b m t s
  | .vgat d a b m t => Sys2Proof.Machine.execVgat d a b m t s
  | .vsct d a b m t => Sys2Proof.Machine.execVsct d a b m t s
  | .vbcast d a m t => Sys2Proof.Machine.execVbcast d a m t s
  | .vext d a b t => Sys2Proof.Machine.execVext d a b t s
  | .vins d a b m t => Sys2Proof.Machine.execVins d a b m t s
  | .vperm d a b m t => Sys2Proof.Machine.execVperm d a b m t s
  | .vcvt d a m t y r => Sys2Proof.Machine.execVcvt d a m t y r s
  | .vmxq d a t => Sys2Proof.Machine.execVmxq d a t s
  | .vmxd d b t => Sys2Proof.Machine.execVmxd d b t s
  | .mand d a b => Sys2Proof.Machine.execMand d a b s
  | .mor d a b => Sys2Proof.Machine.execMor d a b s
  | .mxor d a b => Sys2Proof.Machine.execMxor d a b s
  | .mnot d a => Sys2Proof.Machine.execMnot d a s
  | .mpop d a => Sys2Proof.Machine.execMpop d a s
  | .mfst d a => Sys2Proof.Machine.execMfst d a s
  | .mset d a => Sys2Proof.Machine.execMset d a s
  | .mget d a => Sys2Proof.Machine.execMget d a s
  | .rep a k => Sys2Proof.Machine.execRep a k s
  | .pbindIn a b p => Sys2Proof.Machine.execPbindIn a b p s
  | .pbindOut a b p => Sys2Proof.Machine.execPbindOut a b p s
  | .pdrain p => Sys2Proof.Machine.execPdrain p s
  | .pstat d p => Sys2Proof.Machine.execPstat d p s
  | .pfree p => Sys2Proof.Machine.execPfree p s
  | .mclaim c h => Sys2Proof.Machine.execMclaim c h s
  | .mfree c => Sys2Proof.Machine.execMfree c s
  | .mzero c => Sys2Proof.Machine.execMzero c s
  | .mld c a b => Sys2Proof.Machine.execMld c a b s
  | .mst c a b x t => Sys2Proof.Machine.execMst c a b x t s
  | .mma c a b x t => Sys2Proof.Machine.execMma c a b x t s
  | .mwait c => Sys2Proof.Machine.execMwait c s
  | .mstat c d => Sys2Proof.Machine.execMstat c d s
  | .cpy d a b c => Sys2Proof.Machine.execCpy d a b c s
  | .cpyt d a b c => Sys2Proof.Machine.execCpyt d a b c s
  | .cpyr d a b c t o => Sys2Proof.Machine.execCpyr d a b c t o s
  | .cpyxOut d a b c => Sys2Proof.Machine.execCpyxOut d a b c s
  | .cpyxIn d a b c => Sys2Proof.Machine.execCpyxIn d a b c s
  | .cwait a => Sys2Proof.Machine.execCwait a s
  | .cpoll d a => Sys2Proof.Machine.execCpoll d a s
  | .cabort a => Sys2Proof.Machine.execCabort a s
  | .send d e y => Sys2Proof.Machine.execSend d e y s
  | .sendT d e y => Sys2Proof.Machine.execSendT d e y s
  | .recv d e y => Sys2Proof.Machine.execRecv d e y s
  | .recvT d e y => Sys2Proof.Machine.execRecvT d e y s
  | .sendv d e y => Sys2Proof.Machine.execSendv d e y s
  | .recvv d e y => Sys2Proof.Machine.execRecvv d e y s
  | .sendb d e y x => Sys2Proof.Machine.execSendb d e y x s
  | .recvb d e y x => Sys2Proof.Machine.execRecvb d e y x s
  | .select d b y x => Sys2Proof.Machine.execSelect d b y x s
  | .selectT d b y x => Sys2Proof.Machine.execSelectT d b y x s
  | .probe d e => Sys2Proof.Machine.execProbe d e s
  | .chst d e => Sys2Proof.Machine.execChst d e s
  | .chgive d e => Sys2Proof.Machine.execChgive d e s
  | .latarr d e => Sys2Proof.Machine.execLatarr d e s
  | .latdrop e => Sys2Proof.Machine.execLatdrop e s
  | .latwait d e => Sys2Proof.Machine.execLatwait d e s
  | .spawn d a b y => Sys2Proof.Machine.execSpawn d a b y s
  | .exit => Sys2Proof.Machine.execExit s
  | .yield => Sys2Proof.Machine.execYield s
  | .rds d w => Sys2Proof.Machine.execRds d w s
  | .wrs a w => Sys2Proof.Machine.execWrs a w s
  | .time d => Sys2Proof.Machine.execTime d s
  | .rng d => Sys2Proof.Machine.execRng d s
  | .rngskip a => Sys2Proof.Machine.execRngskip a s
  | .fence f => Sys2Proof.Machine.execFence f s
  | .chkpt => Sys2Proof.Machine.execChkpt s
  | .trap n => Sys2Proof.Machine.execTrap n s
  | .brk n => Sys2Proof.Machine.execBrk n s
  | .eret a => Sys2Proof.Machine.execEret a s
  | .slotrd d a => Sys2Proof.Machine.execSlotrd d a s
  | .slotwr d a b => Sys2Proof.Machine.execSlotwr d a b s
  | .slotctlThaw a b => Sys2Proof.Machine.execSlotctlThaw a b s
  | .slotctlFreeze a b => Sys2Proof.Machine.execSlotctlFreeze a b s
  | .slotctlKill a b => Sys2Proof.Machine.execSlotctlKill a b s
  | .tlbinv a => Sys2Proof.Machine.execTlbinv a s
  | .idle => Sys2Proof.Machine.execIdle s
  | .mrds d w => Sys2Proof.Machine.execMrds d w s
  | .mwrs a w => Sys2Proof.Machine.execMwrs a w s
  | .mwrsFqhd a => Sys2Proof.Machine.execMwrsFqhd a s
  | .mwrsPtent a => Sys2Proof.Machine.execMwrsPtent a s
  | .mwrsHfq a => Sys2Proof.Machine.execMwrsHfq a s
  | .illegalEncoding w => Sys2Proof.Machine.execIllegalEncoding w s
  | .networkStart => Sys2Proof.Machine.execNetworkStart s
  | .poolEntryTakesSlot => Sys2Proof.Machine.execPoolEntryTakesSlot s
  | .ageingThreshold => Sys2Proof.Machine.execAgeingThreshold s
  | .offerArrives => Sys2Proof.Machine.execOfferArrives s
  | .claimArrives => Sys2Proof.Machine.execClaimArrives s
  | .confirmationRequestArrives => Sys2Proof.Machine.execConfirmationRequestArrives s
  | .grantArrives => Sys2Proof.Machine.execGrantArrives s
  | .refusalArrives => Sys2Proof.Machine.execRefusalArrives s
  | .withdrawalArrives => Sys2Proof.Machine.execWithdrawalArrives s
  | .goArrives => Sys2Proof.Machine.execGoArrives s
  | .firstFlitArrives => Sys2Proof.Machine.execFirstFlitArrives s
  | .lastByteWritten => Sys2Proof.Machine.execLastByteWritten s
  | .acknowledgementArrives => Sys2Proof.Machine.execAcknowledgementArrives s
  | .closeNoticeArrives => Sys2Proof.Machine.execCloseNoticeArrives s
  | .deliveryFails => Sys2Proof.Machine.execDeliveryFails s
  | .deadlinePasses => Sys2Proof.Machine.execDeadlinePasses s
  | .virtualChannelFreed => Sys2Proof.Machine.execVirtualChannelFreed s
  | .stubForward => Sys2Proof.Machine.execStubForward s
  | .messageReturnedToSource => Sys2Proof.Machine.execMessageReturnedToSource s
  | .latchArrivalMsg => Sys2Proof.Machine.execLatchArrivalMsg s
  | .latchDropMsg => Sys2Proof.Machine.execLatchDropMsg s
  | .latchLeaveMsg => Sys2Proof.Machine.execLatchLeaveMsg s
  | .phaseMulticastApplied => Sys2Proof.Machine.execPhaseMulticastApplied s
  | .deadboltProbeStart => Sys2Proof.Machine.execDeadboltProbeStart s
  | .deadboltProbeMessage => Sys2Proof.Machine.execDeadboltProbeMessage s
  | .deadboltReport => Sys2Proof.Machine.execDeadboltReport s
  | .translationWalkComplete => Sys2Proof.Machine.execTranslationWalkComplete s
  | .translationEntryApplied => Sys2Proof.Machine.execTranslationEntryApplied s
  | .tlbinvComplete => Sys2Proof.Machine.execTlbinvComplete s
  | .pageWaiterRelease => Sys2Proof.Machine.execPageWaiterRelease s
  | .matrixCommandComplete => Sys2Proof.Machine.execMatrixCommandComplete s
  | .copyElement => Sys2Proof.Machine.execCopyElement s
  | .cpyxElementAck => Sys2Proof.Machine.execCpyxElementAck s
  | .cpyxReadDataArrives => Sys2Proof.Machine.execCpyxReadDataArrives s
  | .cpyxWatchdogExpiry => Sys2Proof.Machine.execCpyxWatchdogExpiry s
  | .cpyxAbortTimeout => Sys2Proof.Machine.execCpyxAbortTimeout s
  | .cpyxPauseAckTimeout => Sys2Proof.Machine.execCpyxPauseAckTimeout s
  | .inputPumpPrefetch => Sys2Proof.Machine.execInputPumpPrefetch s
  | .outputPumpWrite => Sys2Proof.Machine.execOutputPumpWrite s
  | .deferredFaultRecordWrite => Sys2Proof.Machine.execDeferredFaultRecordWrite s
  | .monitorWake => Sys2Proof.Machine.execMonitorWake s
  | .monitorTimeout => Sys2Proof.Machine.execMonitorTimeout s
  | .hfqAppendComplete => Sys2Proof.Machine.execHfqAppendComplete s
  | .fansResume => Sys2Proof.Machine.execFansResume s
  | .fansNext => Sys2Proof.Machine.execFansNext s
  | .fansKill => Sys2Proof.Machine.execFansKill s
  | .freezeRequestAccepted => Sys2Proof.Machine.execFreezeRequestAccepted s
  | .tileQuiescent => Sys2Proof.Machine.execTileQuiescent s
  | .freezeRelease => Sys2Proof.Machine.execFreezeRelease s
  | .supplyOutOfRange => Sys2Proof.Machine.execSupplyOutOfRange s
  | .supplyPowerdown => Sys2Proof.Machine.execSupplyPowerdown s
  | .regionOvercurrent => Sys2Proof.Machine.execRegionOvercurrent s
  | .powerEmergencyClear => Sys2Proof.Machine.execPowerEmergencyClear s
  | .thermalEmergency => Sys2Proof.Machine.execThermalEmergency s
  | .thermalEmergencyClear => Sys2Proof.Machine.execThermalEmergencyClear s
  | .coolantFlowLow => Sys2Proof.Machine.execCoolantFlowLow s
  | .coolantFlowPowerdown => Sys2Proof.Machine.execCoolantFlowPowerdown s
  | .ckintExpiry => Sys2Proof.Machine.execCkintExpiry s
  | .ckminExpiry => Sys2Proof.Machine.execCkminExpiry s
  | .checkpointCommit => Sys2Proof.Machine.execCheckpointCommit s
  | .stagingMergeComplete => Sys2Proof.Machine.execStagingMergeComplete s
  | .inputLogThreshold => Sys2Proof.Machine.execInputLogThreshold s
  | .rollback => Sys2Proof.Machine.execRollback s
  | .replayEnd => Sys2Proof.Machine.execReplayEnd s
  | .correctedError => Sys2Proof.Machine.execCorrectedError s
  | .rotationStepStart => Sys2Proof.Machine.execRotationStepStart s
  | .rotationWarmComplete => Sys2Proof.Machine.execRotationWarmComplete s
  | .routerMapUpdate => Sys2Proof.Machine.execRouterMapUpdate s
  | .routerMapAck => Sys2Proof.Machine.execRouterMapAck s
  | .screeningComplete => Sys2Proof.Machine.execScreeningComplete s
  | .vtileLost => Sys2Proof.Machine.execVtileLost s
  | .reportWrite => Sys2Proof.Machine.execReportWrite s
  | .perstDeassert => Sys2Proof.Machine.execPerstDeassert s
  | .conventionalReset => Sys2Proof.Machine.execConventionalReset s
  | .bdlgoWrite => Sys2Proof.Machine.execBdlgoWrite s
  | .bundleCheckDone => Sys2Proof.Machine.execBundleCheckDone s
  | .rampNeighbourHold => Sys2Proof.Machine.execRampNeighbourHold s
  | .rampWaitLimit => Sys2Proof.Machine.execRampWaitLimit s
  | .regionRampComplete => Sys2Proof.Machine.execRegionRampComplete s
  | .linkTrainingDone => Sys2Proof.Machine.execLinkTrainingDone s
  | .bistDone => Sys2Proof.Machine.execBistDone s
  | .linkDegrade => Sys2Proof.Machine.execLinkDegrade s
  | .hostLinkDown => Sys2Proof.Machine.execHostLinkDown s
  | .flrPf => Sys2Proof.Machine.execFlrPf s
  | .flrVf => Sys2Proof.Machine.execFlrVf s
  | .tsetWrite => Sys2Proof.Machine.execTsetWrite s
  | .ptmRequest => Sys2Proof.Machine.execPtmRequest s
  | .regionReset => Sys2Proof.Machine.execRegionReset s
  | .regionResetDone => Sys2Proof.Machine.execRegionResetDone s
  | .monitorReload => Sys2Proof.Machine.execMonitorReload s
  | .monitorReloadDone => Sys2Proof.Machine.execMonitorReloadDone s
  | .doorbellWrite => Sys2Proof.Machine.execDoorbellWrite s
  | .load => Sys2Proof.Machine.execLoad s
  | .start => Sys2Proof.Machine.execStart s
  | .stop => Sys2Proof.Machine.execStop s
  | .switch => Sys2Proof.Machine.execSwitch s
  | .evict => Sys2Proof.Machine.execEvict s
  | .waitFor => Sys2Proof.Machine.execWaitFor s
  | .completionRecordWrite => Sys2Proof.Machine.execCompletionRecordWrite s
  | .translationWindowWrite => Sys2Proof.Machine.execTranslationWindowWrite s
  | .partitionForm => Sys2Proof.Machine.execPartitionForm s
  | .partitionDissolve => Sys2Proof.Machine.execPartitionDissolve s
  | .partitionAdmit => Sys2Proof.Machine.execPartitionAdmit s
  | .partitionChangeDone => Sys2Proof.Machine.execPartitionChangeDone s
  | .scrubComplete => Sys2Proof.Machine.execScrubComplete s
  | .receiptSigned => Sys2Proof.Machine.execReceiptSigned s
  | .evictionRequest => Sys2Proof.Machine.execEvictionRequest s
  | .evictionAbort => Sys2Proof.Machine.execEvictionAbort s
  | .evictionFrozen => Sys2Proof.Machine.execEvictionFrozen s
  | .evictionSendDone => Sys2Proof.Machine.execEvictionSendDone s
  | .fabricDrained => Sys2Proof.Machine.execFabricDrained s
  | .bladeUnlatch => Sys2Proof.Machine.execBladeUnlatch s
  | .supplyAbsent60s => Sys2Proof.Machine.execSupplyAbsent60s s
  | .nvCounterSave => Sys2Proof.Machine.execNvCounterSave s
  | .retirementLogCommit => Sys2Proof.Machine.execRetirementLogCommit s
  | .opticalDataCodeword => Sys2Proof.Machine.execOpticalDataCodeword s
  | .opticalAckCodeword => Sys2Proof.Machine.execOpticalAckCodeword s
  | .opticalIdleCodeword => Sys2Proof.Machine.execOpticalIdleCodeword s
  | .opticalTrainingCodeword => Sys2Proof.Machine.execOpticalTrainingCodeword s
  | .opticalSignalLoss => Sys2Proof.Machine.execOpticalSignalLoss s
  | .laneLockTimeout => Sys2Proof.Machine.execLaneLockTimeout s
  | .registerWrite => Sys2Proof.Machine.execRegisterWrite s
  | .supplyBackInRange => Sys2Proof.Machine.execSupplyBackInRange s
  | .coolantFlowRestored => Sys2Proof.Machine.execCoolantFlowRestored s
  | .rampNeighbourRelease => Sys2Proof.Machine.execRampNeighbourRelease s
  | .tileFailure => Sys2Proof.Machine.execTileFailure s
  | .stackLost => Sys2Proof.Machine.execStackLost s
  | .wellPageLost => Sys2Proof.Machine.execWellPageLost s
  | .checkpointPageStreamed => Sys2Proof.Machine.execCheckpointPageStreamed s
  | .linkLayerRetry => Sys2Proof.Machine.execLinkLayerRetry s
  | .evictionTargetWrite => Sys2Proof.Machine.execEvictionTargetWrite s
  | .ieee1588SyncMessage => Sys2Proof.Machine.execIeee1588SyncMessage s

end Sys2Proof.Machine
end

