-- ==== Sys2Proof/Machine/Step.lean ====
section
/-! DEFINITION. One step of the panel: an issue of one context on one pipe, the end of a tile's tc, or a turn of the
fabric, which takes an event from outside or one of its own (log entry 1). -/

namespace Sys2Proof.Machine

/-- One step. -/
def step (s : State) : Host.Outcome State Fault Refusal :=
  match s.task with
  | .issue k a =>
    match (s.tile k).choose a with
    | some q => exec ((s.tile k).instrAt q) ((s.startIssue k q a).overtaken ((s.tile k).instrAt q))
    | none => .next (s.idleIssue k a)
  | .tcEnd k => .next (s.tcEnd k).pass
  | .fabric =>
    match s.turnEvent with
    | some (i, a) => exec i (s.startEvent a)
    | none => .next s.idleTurn

/-- The vtile of `withFetchWord`: number 0 of tenant 0 in partition 0, its slot 0 READY at pc 0, its monitor idle, and
the word at code address 0. -/
def fetchVTile (w : Nat) : VTile :=
  { im := { procs := [(0, { st := .ready })], code := Memory.write [] 0 (toBytes 4 w) }, monWait := .idle }

/-- A state in which the next step fetches and runs one given instruction: a partition of region 0 with one vtile whose
slot 0 stands at the instruction, and the turn with the instruction's pipe (log entry 5). -/
def State.withFetchWord (s : State) (nbits w : Nat) : State :=
  { s with
    parts := Sparse.set s.parts 0 { regions := 1, v0 := true, state := 1, tiles := [0] }
    vts := [(0, fetchVTile (w % 2 ^ nbits))]
    inputs := []
    turn := { idx := 0, phase := if onAPipe (BitVec.ofNat 32 (w % 2 ^ nbits)) then 0 else 1 } }

end Sys2Proof.Machine
end

