-- ==== Sys2Proof/Safety.lean ====
section
/-! DEFINITION. What counts as a safe run of the panel, and the terms that statements use: an instruction that goes on,
and what it leaves as it was. -/

namespace Sys2Proof

/-- A step that goes on: no program action and no event takes the device outside the states the manual gives (R8). -/
def Safe (s : Machine.State) : Prop := ∃ t, Machine.step s = .next t

namespace Machine

/-- An instruction or an event goes on to a next state, and what holds of that state. -/
def Completes (i : Instr) (s : State) (P : State → Prop) : Prop := ∃ t, exec i s = .next t ∧ P t

/-- Every byte of the tile stores and of the wells reads as before. -/
def SameBytes (s t : State) : Prop := ∀ k a, t.readByte k a = s.readByte k a

/-- Nothing but the executing context differs: no other context of any tile, no other part of any tile, no byte of
memory, and nothing else of the panel. -/
structure OnlyContext (s t : State) : Prop where
  rest : t = { s with vts := t.vts }
  contexts : ∀ k q, ¬(k = s.cur.vt ∧ q = s.cur.who) → t.procAt k q = s.procAt k q
  tiles : ∀ k, { t.tile k with im := { (t.tile k).im with procs := (s.tile k).im.procs } } = s.tile k
  bytes : SameBytes s t

/-- The executing context has written one g register and ORed flags into fst, and goes on at an address: a write to g0 is
discarded, and every other register and word of the context is as before. -/
structure WritesG (s t : State) (d : Reg) (v : GReg) (pc : Pc) (fl : FFlags) : Prop where
  only : OnlyContext s t
  dest : d ≠ 0 → t.g d = v
  zero : t.g 0 = {}
  others : ∀ r, r ≠ d → t.g r = s.g r
  pc : t.proc.pc = pc
  flags : t.proc.fst = s.proc.fst ||| fl
  rest : { t.proc with g := s.proc.g, pc := s.proc.pc, fst := s.proc.fst } = s.proc

/-- The usual form: data, the next instruction, no flag. -/
def Writes (s t : State) (d : Reg) (v : Word) : Prop := WritesG s t d (dataReg v) (s.proc.pc + 4) 0

/-- The executing context has written one v register and ORed flags into fst, and goes on at an address: a register that stands for an input pump discards the write, one that stands for an output pump also appends it (R200),
and every other register and word of the context is as before. -/
structure WritesV (s t : State) (d : Reg) (v : Vec) (pc : Pc) (fl : FFlags) : Prop where
  only : OnlyContext s t
  dest : s.proc.pops d = false → t.proc.rv d = v
  discarded : s.proc.pops d = true → t.proc.v = s.proc.v
  others : ∀ r, r ≠ d → t.proc.rv r = s.proc.rv r
  appended : s.proc.appends d = true →
    (t.proc.pump (pumpNum d)).pend = (s.proc.pump (pumpNum d)).pend ++ [((s.proc.pump (pumpNum d)).pos.toNat, v)]
      ∧ (t.proc.pump (pumpNum d)).pos = (s.proc.pump (pumpNum d)).pos + 1
  pumps : s.proc.appends d = false → t.proc.pumps = s.proc.pumps
  otherPumps : ∀ k, k ≠ pumpNum d → t.proc.pump k = s.proc.pump k
  pc : t.proc.pc = pc
  flags : t.proc.fst = s.proc.fst ||| fl
  rest : { t.proc with v := s.proc.v, pumps := s.proc.pumps, pc := s.proc.pc, fst := s.proc.fst } = s.proc

/-- The executing context has written one mask register and ORed flags into fst, and goes on to the next instruction: a
write to m0 is discarded. -/
structure WritesM (s t : State) (d : MReg) (v : Word) (fl : FFlags) : Prop where
  only : OnlyContext s t
  dest : d ≠ 0 → t.m d = v
  zero : t.m 0 = BitVec.allOnes 64
  others : ∀ r, r ≠ d → t.m r = s.m r
  pc : t.proc.pc = s.proc.pc + 4
  flags : t.proc.fst = s.proc.fst ||| fl
  rest : { t.proc with m := s.proc.m, pc := s.proc.pc, fst := s.proc.fst } = s.proc

/-- The executing context has written no register and goes on at an address. -/
def GoesTo (s t : State) (pc : Pc) : Prop := WritesG s t 0 {} pc 0

/-- Nothing but one vtile differs: no other vtile, no byte of HBM or of host memory, and nothing else of the panel. -/
structure OnlyTile (s t : State) (k : Nat) : Prop where
  rest : t = { s with vts := t.vts }
  others : ∀ j, j ≠ k → t.tile j = s.tile j

/-- Only the executing vtile differs: it is `v` but for its contexts, of which only the executing one differs, and that is
`p`. -/
structure Becomes (s t : State) (v : VTile) (p : Proc) : Prop where
  only : OnlyTile s t s.cur.vt
  here : { t.here with im := { t.here.im with procs := v.im.procs } } = v
  contexts : ∀ q, q ≠ s.cur.who → t.here.proc q = s.here.proc q
  proc : t.proc = p

/-- The executing process goes BLOCKED in a wait, its pc at the instruction: the blocked-time counter starts, the
generation counts and ageing ends (R22, R31, R59). -/
def Blocks (s t : State) (w : Wait) : Prop :=
  Becomes s t s.here { s.proc with
    st := .blocked, wait := w, btime := 0, gen := s.proc.gen + 1, ageing := 0, aged := false }

/-- The memories outside the tiles and the table of vtiles are in their canonical form: equal contents are equal data; and
no replay is in the middle of an event of its log, which it ends within its step (R334). -/
def Canonical (s : State) : Prop :=
  Memory.wf s.hbm = true ∧ Memory.wf s.hostMem = true ∧ Memory.wf s.peerMem = true ∧ Sparse.wf s.vts = true
    ∧ s.presenting = false

/-- A byte belongs to an element that a copy is writing: one of a cpyx.in of which a unit is written, or the one that any other
copy is at (R216, R222). -/
def Copy.writing (c : Copy) (a : Nat) : Prop :=
  (c.kind = .xin ∧ ∃ n, c.begun n = true ∧ c.localAt n ≤ a ∧ a < c.localAt n + 64)
    ∨ (c.kind ≠ .xin ∧ c.wrote ≠ [] ∧ (c.element c.prog.toNat).2.1 ≤ a
      ∧ a < (c.element c.prog.toNat).2.1 + (c.element c.prog.toNat).2.2)

/-- A byte belongs to the element that an output pump is writing (R200). -/
def Pump.writing (u : Pump) (a : Nat) : Prop :=
  u.wrote ≠ [] ∧ ∃ n v r, u.pend = (n, v) :: r ∧ u.place n ≤ a ∧ a < u.place n + 64

/-- A byte of the wells that the executing vtile may write: its translation maps the page with W (R69), or the byte belongs
to a block that is landing at one of its ends, whose pages were checked when the receive began (R41), to an element that
one of its copies or pumps has begun to write, whose pages were checked then (R71), or to a vector store of the same tc that
has begun, whose lanes were checked then (R74, log entry 115). -/
def State.reachable (s : State) (a : Nat) : Prop :=
  (entryM (s.here.entry (pageOf a)) = true ∧ entryW (s.here.entry (pageOf a)) = true)
    ∨ (∃ e, (s.endAt s.cur.vt e).land ≤ a ∧ a < (s.endAt s.cur.vt e).land + (s.endAt s.cur.vt e).moved)
    ∨ (∃ e, (s.copyAt s.cur.vt e).writing a) ∨ (∃ q p, ((s.procAt s.cur.vt q).pump p).writing a)
    ∨ ∃ h w x, s.here.ahead = some h ∧ w ∈ h.writes ∧ x ∈ w ∧ x.1 ≤ a ∧ a < x.1 + x.2.length

/-- An instruction that one context executed reached nothing but its own vtile, the frames that its translation names with
W, messages of its own vtile, and the end of its own network: every other vtile, memory outside the panel, and every other
record and register of the panel are as before. A monitor that faults may send the driver vector 2 (R91, log entry 39). -/
structure StaysOnTile (s t : State) : Prop where
  others : ∀ j, j ≠ s.cur.vt → t.tile j = s.tile j
  frames : ∀ x, Sparse.get t.hbm x ≠ Sparse.get s.hbm x → ∃ a, wellLo ≤ a ∧ x = s.here.wellPlace a ∧ s.reachable a
  messages : ∀ m ∈ t.msgs, m ∈ s.msgs ∨ m.src.vt = s.cur.vt
  codewords : ∃ l, t.farOut = s.farOut ++ l ∧ ∀ c ∈ l, ∀ f ∈ c.flits, f.msg.src.vt = s.cur.vt
  lanes : ∀ n, { Sparse.get t.lanes n with txSeq := (Sparse.get s.lanes n).txSeq } = Sparse.get s.lanes n
  ports : ∀ n, { Sparse.get t.optPorts n with tx := (Sparse.get s.optPorts n).tx } = Sparse.get s.optPorts n
  nets : ∀ n, Sparse.get t.nets n
    = { Sparse.get s.nets n with
        resident := if n = s.cur.vt / 65536 then (Sparse.get t.nets n).resident else (Sparse.get s.nets n).resident }
  queues : ∀ q, Sparse.get t.queues q = Sparse.get s.queues q
    ∨ (q = (Sparse.get s.nets (s.cur.vt / 65536)).queue
      ∧ Sparse.get t.queues q = { Sparse.get s.queues q with
          begun := (Sparse.get t.queues q).begun, done := (Sparse.get t.queues q).done
          tags := (Sparse.get t.queues q).tags })
  vectors : t.msix = s.msix ∨ t.msix = s.msix ++ [(0, 2)]
  rest : t = { s with
    vts := t.vts, hbm := t.hbm, msgs := t.msgs, farOut := t.farOut, lanes := t.lanes, optPorts := t.optPorts
    nets := t.nets, queues := t.queues, msix := t.msix }

end Machine
end Sys2Proof
end

