-- ==== Sys2Proof/Certificates/Slice0/Obligations.lean ====
section
/-! DEFINITION. The statements for the provers. Each docstring names the rule of the manual that the statement
formalises. -/

open Sys2Proof Sys2Proof.Machine

/-! What the rules give as results. -/

/-- The major opcode of an instruction's word, and the word's lowest n bits. -/
def Rules.CodeIs (i : Instr) (major n low : Nat) : Prop :=
  ∀ w, encode i = some w → w.toNat / 2 ^ 25 = major ∧ w.toNat % 2 ^ n = low


/-- The register and the word that an integer instruction on registers writes (R155 to R158). -/
def Rules.intRegister (s : State) : Instr → Option (Reg × Word)
  | .add d a b => some (d, s.x a + s.x b)
  | .sub d a b => some (d, s.x a - s.x b)
  | .and d a b => some (d, s.x a &&& s.x b)
  | .or d a b => some (d, s.x a ||| s.x b)
  | .xor d a b => some (d, s.x a ^^^ s.x b)
  | .andn d a b => some (d, s.x a &&& ~~~(s.x b))
  | .orn d a b => some (d, s.x a ||| ~~~(s.x b))
  | .shl d a b => some (d, s.x a <<< ((s.x b).toNat % 64))
  | .shr d a b => some (d, s.x a >>> ((s.x b).toNat % 64))
  | .sra d a b => some (d, (s.x a).sshiftRight ((s.x b).toNat % 64))
  | .rol d a b => some (d, (s.x a).rotateLeft ((s.x b).toNat % 64))
  | .ror d a b => some (d, (s.x a).rotateRight ((s.x b).toNat % 64))
  | .addw d a b => some (d, ((s.x a).setWidth 32 + (s.x b).setWidth 32 : BitVec 32).signExtend 64)
  | .subw d a b => some (d, ((s.x a).setWidth 32 - (s.x b).setWidth 32 : BitVec 32).signExtend 64)
  | .mulw d a b => some (d, ((s.x a).setWidth 32 * (s.x b).setWidth 32 : BitVec 32).signExtend 64)
  | .shlw d a b => some (d, ((s.x a).setWidth 32 <<< ((s.x b).toNat % 32) : BitVec 32).signExtend 64)
  | .shrw d a b => some (d, ((s.x a).setWidth 32 >>> ((s.x b).toNat % 32) : BitVec 32).signExtend 64)
  | .sraw d a b => some (d, (((s.x a).setWidth 32 : BitVec 32).sshiftRight ((s.x b).toNat % 32)).signExtend 64)
  | .mul d a b => some (d, s.x a * s.x b)
  | .mulh d a b => some (d, BitVec.ofInt 64 ((s.x a).toInt * (s.x b).toInt / 2 ^ 64))
  | .mulhn d a b => some (d, BitVec.ofNat 64 ((s.x a).toNat * (s.x b).toNat / 2 ^ 64))
  | .div d a b => some (d, if s.x b = 0 then BitVec.allOnes 64 else BitVec.ofInt 64 ((s.x a).toInt.tdiv (s.x b).toInt))
  | .divn d a b => some (d, if s.x b = 0 then BitVec.allOnes 64 else BitVec.ofNat 64 ((s.x a).toNat / (s.x b).toNat))
  | .rem d a b => some (d, if s.x b = 0 then s.x a else BitVec.ofInt 64 ((s.x a).toInt.tmod (s.x b).toInt))
  | .remn d a b => some (d, if s.x b = 0 then s.x a else BitVec.ofNat 64 ((s.x a).toNat % (s.x b).toNat))
  | .min d a b => some (d, BitVec.ofInt 64 (min (s.x a).toInt (s.x b).toInt))
  | .max d a b => some (d, BitVec.ofInt 64 (max (s.x a).toInt (s.x b).toInt))
  | .minn d a b => some (d, BitVec.ofNat 64 (min (s.x a).toNat (s.x b).toNat))
  | .maxn d a b => some (d, BitVec.ofNat 64 (max (s.x a).toNat (s.x b).toNat))
  | .slt d a b => some (d, if (s.x a).toInt < (s.x b).toInt then 1 else 0)
  | .sltn d a b => some (d, if (s.x a).toNat < (s.x b).toNat then 1 else 0)
  | .seq d a b => some (d, if s.x a = s.x b then 1 else 0)
  | .clz d a => some (d, (s.x a).clz)
  | .ctz d a => some (d, (s.x a).ctz)
  | .popc d a => some (d, (s.x a).cpop)
  | .brev d a => some (d, (s.x a).reverse)
  | .bswap d a => some (d, BitVec.ofNat 64 (ofBytes (toBytes 8 (s.x a).toNat).reverse))
  | .sext d a w => some (d, (BitVec.ofNat (w.toNat + 1) (s.x a).toNat).signExtend 64)
  | .zext d a w => some (d, BitVec.ofNat 64 ((s.x a).toNat % 2 ^ (w.toNat + 1)))
  | .csel d a b c => some (d, if s.x c ≠ 0 then s.x a else s.x b)
  | _ => none

/-- The register and the word that an integer instruction on an immediate or a constant writes (R159 to R161). -/
def Rules.intImmediate (s : State) : Instr → Option (Reg × Word)
  | .addi d a i => some (d, s.x a + i.signExtend 64)
  | .andi d a i => some (d, s.x a &&& i.signExtend 64)
  | .ori d a i => some (d, s.x a ||| i.signExtend 64)
  | .xori d a i => some (d, s.x a ^^^ i.signExtend 64)
  | .shli d a n => some (d, s.x a <<< n.toNat)
  | .shri d a n => some (d, s.x a >>> n.toNat)
  | .srai d a n => some (d, (s.x a).sshiftRight n.toNat)
  | .slti d a i => some (d, if (s.x a).toInt < i.toInt then 1 else 0)
  | .sltni d a i => some (d, if (s.x a).toNat < (i.signExtend 64).toNat then 1 else 0)
  | .lui d i => some (d, BitVec.ofInt 64 (i.toInt * 2 ^ 12))
  | .addpc d i => some (d, BitVec.ofNat 64 (((s.proc.pc.toNat : Int) + i.toInt * 4) % 2 ^ 18).toNat)
  | .ldk d k => some (d, s.const k)
  | .addk d a k => some (d, s.x a + s.const k)
  | _ => none

/-- The codes of the integer instructions on registers: the major opcode and the lowest bits of the word, fn10, with the
b field where it is zero (R155 to R158). -/
def Rules.intCode : Instr → Option (Nat × Nat × Nat)
  | .add _ _ _ => some (0, 10, 0x001)
  | .sub _ _ _ => some (0, 10, 0x002)
  | .and _ _ _ => some (0, 10, 0x003)
  | .or _ _ _ => some (0, 10, 0x004)
  | .xor _ _ _ => some (0, 10, 0x005)
  | .andn _ _ _ => some (0, 10, 0x006)
  | .orn _ _ _ => some (0, 10, 0x007)
  | .shl _ _ _ => some (0, 10, 0x008)
  | .shr _ _ _ => some (0, 10, 0x009)
  | .sra _ _ _ => some (0, 10, 0x00a)
  | .rol _ _ _ => some (0, 10, 0x00b)
  | .ror _ _ _ => some (0, 10, 0x00c)
  | .addw _ _ _ => some (0, 10, 0x010)
  | .subw _ _ _ => some (0, 10, 0x011)
  | .mulw _ _ _ => some (0, 10, 0x012)
  | .shlw _ _ _ => some (0, 10, 0x013)
  | .shrw _ _ _ => some (0, 10, 0x014)
  | .sraw _ _ _ => some (0, 10, 0x015)
  | .mul _ _ _ => some (0, 10, 0x020)
  | .mulh _ _ _ => some (0, 10, 0x021)
  | .mulhn _ _ _ => some (0, 10, 0x022)
  | .div _ _ _ => some (0, 10, 0x023)
  | .divn _ _ _ => some (0, 10, 0x024)
  | .rem _ _ _ => some (0, 10, 0x025)
  | .remn _ _ _ => some (0, 10, 0x026)
  | .min _ _ _ => some (0, 10, 0x030)
  | .max _ _ _ => some (0, 10, 0x031)
  | .minn _ _ _ => some (0, 10, 0x032)
  | .maxn _ _ _ => some (0, 10, 0x033)
  | .slt _ _ _ => some (0, 10, 0x034)
  | .sltn _ _ _ => some (0, 10, 0x035)
  | .seq _ _ _ => some (0, 10, 0x036)
  | .clz _ _ => some (0, 15, 0x040)
  | .ctz _ _ => some (0, 15, 0x041)
  | .popc _ _ => some (0, 15, 0x042)
  | .brev _ _ => some (0, 15, 0x043)
  | .bswap _ _ => some (0, 15, 0x044)
  | .sext _ _ w => some (0, 15, 0x0FF + (w.toNat + 1))
  | .zext _ _ w => some (0, 15, 0x13F + (w.toNat + 1))
  | .csel _ _ _ c => some (1, 10, c.toNat * 32)
  | _ => none

/-- **Integer results.** R155 to R158, R108: each register form writes the word of its rule into gd, as data, and goes
on at pc + 4; g0 stays zero, and no other register, flag, word, byte of memory or context changes. Each has the code of its
table. -/
def Rules.IntegerRegisterResults : Prop :=
  (∀ (s : State) (i : Instr) (d : Reg) (v : Word), Rules.intRegister s i = some (d, v) →
    Completes i s (fun t => Writes s t d v))
  ∧ ∀ i m n f, Rules.intCode i = some (m, n, f) → Rules.CodeIs i m n f

/-- **Immediate and constant results.** R159 to R161: likewise for the immediate, upper and constant forms. -/
def Rules.IntegerImmediateResults : Prop :=
  ∀ (s : State) (i : Instr) (d : Reg) (v : Word), Rules.intImmediate s i = some (d, v) →
    Completes i s (fun t => Writes s t d v)

/-- **Integer instructions.** R155 to R161, R108: the results of the register forms and of the immediate, upper and constant forms. -/
def Obligations.IntegerResults : Prop := Rules.IntegerRegisterResults ∧ Rules.IntegerImmediateResults


/-! Capabilities, control, scalar accesses. -/

/-- The capability that a derivation from a tagged source writes (R163 to R165). -/
def Rules.derived (s : State) : Instr → Option (Reg × Reg × GReg)
  | .cinc d a b =>
    some (d, a, mkCap ((s.g a).cursor + (s.x b).setWidth 32) (s.g a).base (s.g a).limit (s.g a).perms)
  | .cinci d a i =>
    some (d, a, mkCap ((s.g a).cursor + (i.signExtend 64).setWidth 32) (s.g a).base (s.g a).limit (s.g a).perms)
  | .cperm d a b =>
    some (d, a, mkCap (s.g a).cursor (s.g a).base (s.g a).limit ((s.g a).perms &&& (s.x b).setWidth 5))
  | _ => none

/-- What the queries of a capability write, whatever the tag (R166). -/
def Rules.queried (s : State) : Instr → Option (Reg × Word)
  | .csub d a b => some (d, (s.g a).cursor.setWidth 64 - (s.g b).cursor.setWidth 64)
  | .cbase d a => some (d, (s.g a).base.setWidth 64)
  | .climit d a => some (d, (s.g a).limit.setWidth 64)
  | .cgetp d a => some (d, (s.g a).perms.setWidth 64)
  | .ctag d a => some (d, if (s.g a).tag then 1 else 0)
  | _ => none

/-- **Capability derivation.** R162 to R165: from a tagged source cinc, cinci and cperm write the derived capability,
tagged; from an untagged one they raise CAP_TAG at the source's cursor. -/
def Rules.CapabilityDerivation : Prop :=
  ∀ (s : State) (i : Instr) (d a : Reg) (v : GReg), Rules.derived s i = some (d, a, v) →
    ((s.g a).tag = true → v.tag = true ∧ Completes i s (fun t => WritesG s t d v (s.proc.pc + 4) 0))
    ∧ ((s.g a).tag = false → exec i s = .next (s.raise
        { code := codeCapTag, addr := (s.g a).cursor, aux := BitVec.ofNat 64 a.toNat }))
    ∧ (∀ b, i = .cinc d a b → Rules.CodeIs i 0x0E 10 2) ∧ (∀ k, i = .cinci d a k → Rules.CodeIs i 0x0F 0 0)
    ∧ ∀ b, i = .cperm d a b → Rules.CodeIs i 0x0E 10 3

/-- **cbnd.** R163: bounds from the cursor over y bytes when they lie inside the source's; CAP_TAG of an untagged
source and CAP_BOUNDS outside; the new bounds never reach past the old ones. -/
def Rules.CapabilityBounds : Prop :=
  ∀ (s : State) (d a b : Reg),
    ((s.g a).tag = true → (s.g a).base.toNat ≤ (s.g a).cursor.toNat →
      (s.g a).cursor.toNat + (s.x b).toNat ≤ (s.g a).limit.toNat →
      Completes (.cbnd d a b) s (fun t => ∃ v : GReg,
        WritesG s t d v (s.proc.pc + 4) 0 ∧ v.tag = true ∧ v.cursor = (s.g a).cursor ∧ v.base = (s.g a).cursor
        ∧ v.limit.toNat = (s.g a).cursor.toNat + (s.x b).toNat ∧ v.perms = (s.g a).perms
        ∧ (s.g a).base.toNat ≤ v.base.toNat ∧ v.limit.toNat ≤ (s.g a).limit.toNat))
    ∧ ((s.g a).tag = true → ((s.g a).cursor.toNat < (s.g a).base.toNat
        ∨ (s.g a).limit.toNat < (s.g a).cursor.toNat + (s.x b).toNat) →
      exec (.cbnd d a b) s = .next (s.raise
        { code := codeCapBounds, addr := (s.g a).cursor,
          aux := BitVec.ofNat 64 (a.toNat + 2 ^ 8 * min (s.x b).toNat 0xFFFFFFFF) }))
    ∧ ((s.g a).tag = false → exec (.cbnd d a b) s = .next (s.raise
        { code := codeCapTag, addr := (s.g a).cursor,
          aux := BitVec.ofNat 64 (a.toNat + 2 ^ 8 * min (s.x b).toNat 0xFFFFFFFF) }))
    ∧ Rules.CodeIs (.cbnd d a b) 0x0E 10 1

/-- **Capability queries.** R166, R167: csub, cbase, climit, cgetp and ctag write data and never fault; cuntag writes all
128 bits untagged. -/
def Rules.CapabilityQueries : Prop :=
  (∀ (s : State) (i : Instr) (d : Reg) (v : Word), Rules.queried s i = some (d, v) →
    Completes i s (fun t => Writes s t d v))
  ∧ ∀ (s : State) (d a : Reg),
    Completes (.cuntag d a) s (fun t => WritesG s t d { tag := false, val := (s.g a).val } (s.proc.pc + 4) 0)

/-- **Capabilities.** R162 to R167: derivation from a tagged source, and the queries. -/
def Rules.CapabilityDerivationAndQueries : Prop := Rules.CapabilityDerivation ∧ Rules.CapabilityQueries

/-- **Capability instructions.** R162 to R167: bounds, derivation from a tagged source, and the queries. -/
def Obligations.CapabilityInstructions : Prop := Rules.CapabilityBounds ∧ Rules.CapabilityDerivationAndQueries


/-- The condition and the displacement of a branch (R168). -/
def Rules.branch (s : State) : Instr → Option (Bool × BitVec 15)
  | .beq a b p => some (decide (s.x a = s.x b), p)
  | .bne a b p => some (decide (s.x a ≠ s.x b), p)
  | .blt a b p => some (decide ((s.x a).toInt < (s.x b).toInt), p)
  | .bge a b p => some (decide ((s.x b).toInt ≤ (s.x a).toInt), p)
  | .bltn a b p => some (decide ((s.x a).toNat < (s.x b).toNat), p)
  | .bgen a b p => some (decide ((s.x b).toNat ≤ (s.x a).toNat), p)
  | .bz a p => some (decide (s.x a = 0), p)
  | .bnz a p => some (decide (s.x a ≠ 0), p)
  | _ => none

/-- The majors of the branches and jumps (R168, R169). -/
def Rules.controlMajor : Instr → Option Nat
  | .beq _ _ _ => some 0x10
  | .bne _ _ _ => some 0x11
  | .blt _ _ _ => some 0x12
  | .bge _ _ _ => some 0x13
  | .bltn _ _ _ => some 0x14
  | .bgen _ _ _ => some 0x15
  | .bz _ _ => some 0x16
  | .bnz _ _ => some 0x17
  | .jal _ _ => some 0x18
  | .jalr _ _ _ => some 0x19
  | _ => none

/-- **Branches.** R168, R135: a branch writes no register and goes to (pc + sext(disp15) x 4) mod 2^18 when its condition
holds, else to pc + 4; its word has its major, a in bits [24:20] and b, or zero, in bits [19:15]. -/
def Rules.BranchTargets : Prop :=
  (∀ (s : State) (i : Instr) (c : Bool) (p : BitVec 15), Rules.branch s i = some (c, p) →
    Completes i s (fun t => GoesTo s t
      (if c then BitVec.ofInt 18 ((s.proc.pc.toNat : Int) + p.toInt * 4) else s.proc.pc + 4)))
  ∧ ∀ i m, Rules.controlMajor i = some m → ∀ w, encode i = some w → w.toNat / 2 ^ 25 = m ∧ match i with
      | .beq a b p | .bne a b p | .blt a b p | .bge a b p | .bltn a b p | .bgen a b p =>
        w.toNat % 2 ^ 25 = a.toNat * 2 ^ 20 + b.toNat * 2 ^ 15 + p.toNat
      | .bz a p | .bnz a p => w.toNat % 2 ^ 25 = a.toNat * 2 ^ 20 + p.toNat
      | _ => True

/-- **Jumps.** R169: jal and jalr write pc + 4 to gd as data; jal goes to (pc + sext(disp20) x 4) mod 2^18, jalr to
(x + sext(imm15) x 4) mod 2^18 with bits [1:0] zero, ga being read before gd is written. -/
def Rules.JumpTargets : Prop :=
  ∀ (s : State) (d a : Reg) (p : BitVec 20) (i : BitVec 15),
    Completes (.jal d p) s (fun t => WritesG s t d (dataReg ((s.proc.pc + 4).setWidth 64))
      (BitVec.ofInt 18 ((s.proc.pc.toNat : Int) + p.toInt * 4)) 0)
    ∧ Completes (.jalr d a i) s (fun t => WritesG s t d (dataReg ((s.proc.pc + 4).setWidth 64))
      (BitVec.ofNat 18 ((((s.x a).toInt + i.toInt * 4) % 2 ^ 18).toNat / 4 * 4)) 0)

/-- **Control.** R168, R169, R135: where branches and jumps go, and the link register. -/
def Obligations.ControlTransfers : Prop := Rules.BranchTargets ∧ Rules.JumpTargets


/-- The rows of the address map that an access of the executing context may lie in, each with its first address and the
first above it (R61, R92). -/
def Rules.rows (s : State) (storeOnly : Bool) : List (Nat × Nat) :=
  [(0x00000800, 0x001E0000)] ++ (if s.inMonitor then [(0x001E0000, 0x00200000)] else [])
    ++ (if s.inMonitor || storeOnly then [] else [(0x40000000, s.wellHi s.cur.vt)])

/-- A page of the executing vtile's well allows an access: no record of it is outstanding, and its entry is mapped with the
rights asked for (R69, R72). -/
def Rules.pageOpen (s : State) (a : Access) (p : Nat) : Prop :=
  (∀ r, r ∈ s.here.pages → r.page.toNat ≠ p) ∧ entryM (s.here.entry p) = true
    ∧ (a.rd = true → entryR (s.here.entry p) = true) ∧ (a.wr = true → entryW (s.here.entry p) = true)

/-- A capability fault of an access: the register, the operand and the footprint in aux (R81, R85). -/
def Rules.capFlt (a : Access) (code : BitVec 8) (addr : Nat) : Flt :=
  { code := code, addr := BitVec.ofNat 32 addr,
    aux := BitVec.ofNat 64 (a.reg.toNat + a.operand * 32 + min a.size 0xFFFFFFFF * 256) }

/-- **The check of an access.** R64, R65, R69, R72, R85: tag, perms, bounds, alignment, region and page are checked in that
order; the first that fails is the fault, at the lowest byte that fails, and an access that fails none goes to the
capability's cursor plus its offset, mod 2^32. -/
def Rules.AccessCheck : Prop :=
  ∀ (s : State) (a : Access) (A : Nat), A = (((a.g.cursor.toNat : Int) + a.off) % 2 ^ 32).toNat →
    (a.g.tag = false → s.check a = .error (Rules.capFlt a codeCapTag A))
    ∧ (a.g.tag = true → a.g.perms &&& a.perms ≠ a.perms → s.check a = .error (Rules.capFlt a codeCapPerm A))
    ∧ (a.g.tag = true → a.g.perms &&& a.perms = a.perms →
      (A < a.g.base.toNat ∨ a.g.limit.toNat < A + a.size → s.check a = .error (Rules.capFlt a codeCapBounds
        (if a.g.base.toNat ≤ A ∧ A < a.g.limit.toNat then a.g.limit.toNat else A)))
      ∧ (a.g.base.toNat ≤ A → A + a.size ≤ a.g.limit.toNat →
        (A % a.align ≠ 0 → s.check a = .error (Rules.capFlt a codeAlign A))
        ∧ (A % a.align = 0 →
          ((∀ r, r ∈ Rules.rows s a.storeOnly → ¬(r.1 ≤ A ∧ A + a.size ≤ r.2)) →
            (∀ r, r ∈ Rules.rows s a.storeOnly → r.1 ≤ A → A < r.2 →
              s.check a = .error (Rules.capFlt a codeRegion r.2))
            ∧ ((∀ r, r ∈ Rules.rows s a.storeOnly → ¬(r.1 ≤ A ∧ A < r.2)) →
              s.check a = .error (Rules.capFlt a codeRegion A)))
          ∧ (∀ r, r ∈ Rules.rows s a.storeOnly → r.1 ≤ A → A + a.size ≤ r.2 →
            (∀ p, a.pages = true → wellLo ≤ A → a.size ≠ 0 → pageOf A ≤ p → p ≤ pageOf (A + a.size - 1) →
              ¬Rules.pageOpen s a p → (∀ p', pageOf A ≤ p' → p' < p → Rules.pageOpen s a p') →
              s.check a = .error {
                code := codePage, addr := BitVec.ofNat 32 (max A (wellLo + p * 65536)),
                aux := BitVec.ofNat 64 (p % 16384 + (if a.wr then 16384 else 0)) })
            ∧ ((a.pages = false ∨ A < wellLo ∨ a.size = 0
                ∨ ∀ p, pageOf A ≤ p → p ≤ pageOf (A + a.size - 1) → Rules.pageOpen s a p) →
              s.check a = .ok A)))))

/-- What a scalar load reads: its register, capability register, displacement and size, and the word its bytes give
(R170). -/
def Rules.load : Instr → Option (Reg × Reg × BitVec 15 × Nat × (Nat → Word))
  | .ldb d a i => some (d, a, i, 1, fun n => (BitVec.ofNat 8 n).signExtend 64)
  | .ldbn d a i => some (d, a, i, 1, fun n => BitVec.ofNat 64 n)
  | .ldh d a i => some (d, a, i, 2, fun n => (BitVec.ofNat 16 n).signExtend 64)
  | .ldhn d a i => some (d, a, i, 2, fun n => BitVec.ofNat 64 n)
  | .ldw d a i => some (d, a, i, 4, fun n => (BitVec.ofNat 32 n).signExtend 64)
  | .ldwn d a i => some (d, a, i, 4, fun n => BitVec.ofNat 64 n)
  | .ldd d a i => some (d, a, i, 8, fun n => BitVec.ofNat 64 n)
  | _ => none

/-- The majors of the scalar loads and stores (R170, R171). -/
def Rules.accessMajor : Instr → Option Nat
  | .ldb _ _ _ => some 0x20
  | .ldbn _ _ _ => some 0x21
  | .ldh _ _ _ => some 0x22
  | .ldhn _ _ _ => some 0x23
  | .ldw _ _ _ => some 0x24
  | .ldwn _ _ _ => some 0x25
  | .ldd _ _ _ => some 0x26
  | .stb _ _ _ => some 0x28
  | .sth _ _ _ => some 0x29
  | .stw _ _ _ => some 0x2A
  | .std _ _ _ => some 0x2B
  | _ => none

/-- The events of a misaligned access: a byte each, in ascending order (R173). -/
def Rules.byteParts (a n : Nat) : List (Nat × Nat) := (List.range n).map (fun j => (a + j, 1))

/-- What a store of the executing context leaves: its bytes; and where the context is the monitor an entry in the input log,
from which a replay, in which no monitor runs, takes the store (R332; the entry is the model's own form, log entry 116). -/
def Rules.stored (s : State) (addr : Nat) (l : List Byte) : State :=
  (if s.inMonitor then s.log s.cur.vt { mon := some (.store addr l false) } else s).writeBytes s.cur.vt addr l

/-- **Scalar loads.** R170, R173, R64, R65: a load whose access is allowed writes its bytes, little-endian and extended, to gd
as data and changes no byte; an aligned one reads them in one event, a misaligned one in one event a byte, between which
engines, pumps, blocks and the vector access of the same tc may have theirs; one whose access is not allowed raises the first fault of the check. -/
def Rules.ScalarLoads : Prop :=
  (∀ (s : State) (i : Instr) (d a : Reg) (o : BitVec 15) (n : Nat) (f : Nat → Word),
    Rules.load i = some (d, a, o, n, f) →
    (∀ addr, s.check (loadAccess (s.g a) a o n) = .ok addr → addr % n = 0 →
      Completes i s (fun t => Writes (s.walkFor s.cur.vt addr n) t d (f (ofBytes (s.readBytes s.cur.vt addr n)))
        ∧ SameBytes s t))
    ∧ (∀ addr u l, s.check (loadAccess (s.g a) a o n) = .ok addr → addr % n ≠ 0 →
      (s.walkFor s.cur.vt addr n).readParts 0 (Rules.byteParts addr n) = (u, l) →
      Completes i s (fun t => Writes u t d (f (ofBytes l.flatten)) ∧ SameBytes u t))
    ∧ ∀ e, s.check (loadAccess (s.g a) a o n) = .error e → exec i s = .next (s.raise e))
  ∧ ∀ i m, Rules.accessMajor i = some m → Rules.CodeIs i m 0 0

/-- What a scalar store writes: its source register, capability register, displacement and size (R171). -/
def Rules.store : Instr → Option (Reg × Reg × BitVec 15 × Nat)
  | .stb d a i => some (d, a, i, 1)
  | .sth d a i => some (d, a, i, 2)
  | .stw d a i => some (d, a, i, 4)
  | .std d a i => some (d, a, i, 8)
  | _ => none

/-- **Scalar stores.** R171, R173: a store whose access is allowed writes the low bytes of gd at the checked address, no
register, and goes on at pc + 4; an aligned one is one event, after which the tag of every unit of the tile store that it
touches is clear, a misaligned one is one event a byte; one whose access is not allowed raises the first fault of the
check and stores nothing. -/
def Rules.ScalarStores : Prop :=
  ∀ (s : State) (i : Instr) (d a : Reg) (o : BitVec 15) (n : Nat), Rules.store i = some (d, a, o, n) →
    (∀ addr, s.check (storeAccess (s.g a) a o n) = .ok addr → addr % n = 0 →
      Completes i s (fun t => GoesTo
        (Rules.stored (s.walkFor s.cur.vt addr n) addr (toBytes n (s.x d).toNat)) t (s.proc.pc + 4)
        ∧ (addr < wellLo → ∀ u, Sparse.get t.here.im.tags u =
            (if addr ≤ u * 16 + 15 ∧ u * 16 < addr + n then false else Sparse.get s.here.im.tags u))))
    ∧ (∀ addr, s.check (storeAccess (s.g a) a o n) = .ok addr → addr % n ≠ 0 →
      Completes i s (fun t => GoesTo
        ((s.walkFor s.cur.vt addr n).writeParts 0 ((List.range n).map (fun j =>
          [(addr + j, [BitVec.ofNat 8 ((s.x d).toNat / 2 ^ (8 * j))])]))) t (s.proc.pc + 4)))
    ∧ ∀ e, s.check (storeAccess (s.g a) a o n) = .error e → exec i s = .next (s.raise e)

/-- **Scalar loads and stores.** R64, R65, R69, R72, R85, R170, R171, R173: the check that every access through a capability
makes, what a load reads and a store writes, and the faults of their checks. The address that the record of a failed check
names is read from R85 (log entry 14); what may come between the events of a misaligned access is a free choice (log entries
3 and 115). -/
def Obligations.LoadsAndStores : Prop := Rules.AccessCheck ∧ Rules.ScalarLoads ∧ Rules.ScalarStores


/-- The place of an address: a byte of a vtile's tile store, or a byte of HBM (R61, R68). -/
def Rules.place (s : State) (k a : Nat) : Nat × Nat :=
  if a < wellLo then (0, k * 2 ^ 32 + a) else (1, (s.tile k).wellPlace a)

/-- **Stored bytes.** R66, R73: a write of bytes at an address leaves every byte at every other place as it was, for every
vtile and address; in the tile store the bytes read back, and the tag of every unit that they touch is clear and of
every other unit as before. -/
def Obligations.StoredBytes : Prop :=
  ∀ (s : State) (k a : Nat) (l : List Byte), l ≠ [] → a + l.length ≤ 2 ^ 32 →
    (∀ k' a', a' < 2 ^ 32 → (∀ j, j < l.length → Rules.place s k' a' ≠ Rules.place s k (a + j)) →
      (s.writeBytes k a l).readByte k' a' = s.readByte k' a')
    ∧ (a + l.length ≤ wellLo → (∀ j, j < l.length → (s.writeBytes k a l).readByte k (a + j) = l.getD j 0)
      ∧ ∀ u, Sparse.get ((s.writeBytes k a l).tile k).im.tags u =
          (if a ≤ u * 16 + 15 ∧ u * 16 < a + l.length then false else Sparse.get (s.tile k).im.tags u))
    ∧ ∀ k' q, (s.writeBytes k a l).procAt k' q = s.procAt k' q

/-- **ldc and stc.** R67, R172: ldc writes 16 bytes to gd whole, tagged exactly when the unit lies in the tile store, is tagged and
the capability has LC; stc writes all 16 bytes of gd, and a tagged value sets the tag of its unit of the tile store, that of a unit of the
monitor area too, which is the model's choice (log entry 119). -/
def Obligations.CapabilityLoadStore : Prop :=
  ∀ (s : State) (d a : Reg) (i : BitVec 15),
    (∀ addr, s.check (ldcAccess (s.g a) a i) = .ok addr →
      Completes (.ldc d a i) s (fun t => WritesG (s.walkFor s.cur.vt addr 16) t d
        { tag := decide (addr < wellLo) && Sparse.get s.here.im.tags (addr / 16) && ((s.g a).perms &&& permLC != 0),
          val := BitVec.ofNat 128 (ofBytes (s.readBytes s.cur.vt addr 16)) } (s.proc.pc + 4) 0 ∧ SameBytes s t))
    ∧ (∀ addr, s.check (stcAccess (s.g a) a i (s.g d).tag) = .ok addr →
      Completes (.stc d a i) s (fun t =>
        (∀ k b, t.readByte k b =
          ((s.walkFor s.cur.vt addr 16).writeBytes s.cur.vt addr (toBytes 16 (s.g d).val.toNat)).readByte k b)
        ∧ (addr < wellLo → Sparse.get t.here.im.tags (addr / 16) = (s.g d).tag)
        ∧ t.proc = { s.proc with pc := s.proc.pc + 4 }
        ∧ ∀ k q, ¬(k = s.cur.vt ∧ q = s.cur.who) → t.procAt k q = s.procAt k q))

/-- The new value of an atomic's operand, of `n` bytes, from its old one; none leaves it (R174, R175). -/
def Rules.atomicNew (s : State) (n : Nat) (old : Nat) : Instr → Option (Option Nat)
  | .amoadd _ _ b _ => some (some (old + (s.x b).toNat))
  | .amoand _ _ b _ => some (some (old &&& (s.x b).toNat % 2 ^ (8 * n)))
  | .amoor _ _ b _ => some (some (old ||| (s.x b).toNat % 2 ^ (8 * n)))
  | .amoxor _ _ b _ => some (some (old ^^^ (s.x b).toNat % 2 ^ (8 * n)))
  | .amomin _ _ b _ => some (some (if (BitVec.ofNat (8 * n) old).toInt ≤ (BitVec.ofNat (8 * n) (s.x b).toNat).toInt
      then old else (s.x b).toNat))
  | .amomax _ _ b _ => some (some (if (BitVec.ofNat (8 * n) (s.x b).toNat).toInt ≤ (BitVec.ofNat (8 * n) old).toInt
      then old else (s.x b).toNat))
  | .amominn _ _ b _ => some (some (min old ((s.x b).toNat % 2 ^ (8 * n))))
  | .amomaxn _ _ b _ => some (some (max old ((s.x b).toNat % 2 ^ (8 * n))))
  | .amoswp _ _ b _ => some (some (s.x b).toNat)
  | .cas d _ b _ => some (if old = (s.x d).toNat % 2 ^ (8 * n) then some (s.x b).toNat else none)
  | _ => none

/-- The registers and the width of an atomic. -/
def Rules.atomicForm : Instr → Option (Reg × Reg × Bool)
  | .amoadd d a _ z | .amoand d a _ z | .amoor d a _ z | .amoxor d a _ z | .amomin d a _ z | .amomax d a _ z
  | .amominn d a _ z | .amomaxn d a _ z | .amoswp d a _ z | .cas d a _ z => some (d, a, z)
  | _ => none

/-- **Atomics.** R174, R175, R85: an atomic whose access is allowed is one event: it reads the operand, writes the new value's low
bytes (cas only when the old value equals the comparand in gd) and writes the old value to gd, sign-extended for .w; one
whose access is not allowed raises the first fault of the check. The log's entry for a monitor's store is the model's own (log
entry 116). -/
def Obligations.Atomics : Prop :=
  ∀ (s : State) (i : Instr) (d a : Reg) (z : Bool), Rules.atomicForm i = some (d, a, z) →
    (∀ addr new, s.check (atomicAccess (s.g a) a (if z then 8 else 4)) = .ok addr →
      Rules.atomicNew s (if z then 8 else 4) (ofBytes (s.readBytes s.cur.vt addr (if z then 8 else 4))) i = some new →
      Completes i s (fun t =>
        Writes (match new with
          | some v => Rules.stored (s.walkFor s.cur.vt addr (if z then 8 else 4)) addr (toBytes (if z then 8 else 4) v)
          | none => s.walkFor s.cur.vt addr (if z then 8 else 4)) t d
          (if z then BitVec.ofNat 64 (ofBytes (s.readBytes s.cur.vt addr 8))
           else (BitVec.ofNat 32 (ofBytes (s.readBytes s.cur.vt addr 4))).signExtend 64)))
    ∧ ∀ e, s.check (atomicAccess (s.g a) a (if z then 8 else 4)) = .error e → exec i s = .next (s.raise e)

/-! Scalar floats. -/

/-- The register, the encoding and the flags that a scalar float instruction gives (R177 to R180, R182), with the operands
read as values of the format and rounded once per frm. -/
def Rules.floatResult (s : State) : Instr → Option (Reg × Word × FFlags)
  | .fadd d a b w => some (d, rounded (fmtW w) s.mode (fsum s.mode [s.fx w a, s.fx w b]))
  | .fsub d a b w => some (d, rounded (fmtW w) s.mode (fsum s.mode [s.fx w a, (s.fx w b).negate]))
  | .fmul d a b w => some (d, rounded (fmtW w) s.mode ((s.fx w a).mul (s.fx w b)))
  | .fdiv d a b w =>
    let r := rounded (fmtW w) s.mode (FVal.div (fmtW w).bits (s.fx w a) (s.fx w b))
    some (d, r.1, r.2 ||| flagIf (divByZero (s.fx w a) (s.fx w b)) flagDZ)
  | .fsqrt d a w => some (d, rounded (fmtW w) s.mode (FVal.sqrt (fmtW w).bits (s.fx w a)))
  | .fma d a b c w => some (d, rounded (fmtW w) s.mode (fsum s.mode [(s.fx w a).mul (s.fx w b), s.fx w c]))
  | .fms d a b c w =>
    some (d, rounded (fmtW w) s.mode (fsum s.mode [(s.fx w a).mul (s.fx w b), (s.fx w c).negate]))
  | .fnma d a b c w =>
    some (d, rounded (fmtW w) s.mode (fsum s.mode [((s.fx w a).mul (s.fx w b)).negate, (s.fx w c).negate]))
  | .fnms d a b c w =>
    some (d, rounded (fmtW w) s.mode (fsum s.mode [((s.fx w a).mul (s.fx w b)).negate, s.fx w c]))
  | .fmin d a b w => some (d, asWord ((fmtW w).minmax false (floatBits w (s.x a)) (floatBits w (s.x b))))
  | .fmax d a b w => some (d, asWord ((fmtW w).minmax true (floatBits w (s.x a)) (floatBits w (s.x b))))
  | .fsgnJ d a b w => some (d, asWord
      ((fmtW w).signed (s.fsign w b) (floatBits w (s.x a) % (fmtW w).signBit), 0))
  | .fsgnN d a b w => some (d, asWord
      ((fmtW w).signed (!s.fsign w b) (floatBits w (s.x a) % (fmtW w).signBit), 0))
  | .fsgnX d a b w => some (d, asWord
      ((fmtW w).signed (s.fsign w a != s.fsign w b) (floatBits w (s.x a) % (fmtW w).signBit), 0))
  | .fclass d a w => some (d, BitVec.ofNat 64 ((fmtW w).classBits (floatBits w (s.x a))), 0)
  | .fcmpEq d a b w => some (d, compared .eq (s.fx w a) (s.fx w b))
  | .fcmpLt d a b w => some (d, compared .lt (s.fx w a) (s.fx w b))
  | .fcmpLe d a b w => some (d, compared .le (s.fx w a) (s.fx w b))
  | .fmvk d k w => some (d, if w then s.const k else BitVec.ofNat 64 ((s.const k).toNat % 2 ^ 32), 0)
  | _ => none
where
  /-- An encoding with its flags, the encoding as a word. -/
  asWord (r : FRes) : Word × FFlags := (BitVec.ofNat 64 r.1, r.2)
  /-- A value delivered in a format. -/
  rounded (f : Fmt) (m : RMode) (v : FVal) : Word × FFlags := asWord (f.deliver m v)
  /-- A comparison: 1 or 0. -/
  compared (c : FCmp) (x y : FVal) : Word × FFlags := (if c.holds x y then 1 else 0, c.flags x y)

/-- **Scalar float results.** R177 to R180, R182, R114: each instruction writes its result's encoding to gd as data with the
bits above it zero, ORs its flags into fst, and goes on at pc + 4; fcmp and fmvk have their codes. -/
def Rules.ScalarFloatResults : Prop :=
  (∀ (s : State) (i : Instr) (d : Reg) (v : Word) (fl : FFlags), Rules.floatResult s i = some (d, v, fl) →
    Completes i s (fun t => WritesG s t d (dataReg v) (s.proc.pc + 4) fl))
  ∧ (∀ d a b w, Rules.CodeIs (.fcmpEq d a b w) 0x31 10 (if w then 4 else 0)
    ∧ Rules.CodeIs (.fcmpLt d a b w) 0x31 10 (if w then 5 else 1)
    ∧ Rules.CodeIs (.fcmpLe d a b w) 0x31 10 (if w then 6 else 2))
  ∧ ∀ d k w, Rules.CodeIs (.fmvk d k w) 0x32 7 (if w then 1 else 0)

/-- **fcvt.** R181, R119: the conversion of the low bits of ga, sign-extended for a signed integer type; the .sr form draws
one output of the process's stream, and the other form none. -/
def Rules.ScalarConversion : Prop :=
  ∀ (s : State) (d a : Reg) (t f : LaneTy) (r : Bool),
    Completes (.fcvt d a t f r) s (fun u =>
      WritesG (s.drawn (if r then 1 else 0)) u d
        (dataReg (extendTo t (convert s.mode t f r ((s.draw 0).toNat / 2 ^ 32) (s.x a).toNat).1)) (s.proc.pc + 4)
        (convert s.mode t f r ((s.draw 0).toNat / 2 ^ 32) (s.x a).toNat).2
      ∧ u.proc.rngn = (if r then s.proc.rngn + 1 else s.proc.rngn))

/-- **Scalar float.** R177 to R182, R114, R119: the results, the conversions and the flags they raise. -/
def Obligations.ScalarFloat : Prop := Rules.ScalarFloatResults ∧ Rules.ScalarConversion


/-! Vectors. -/

/-- A rule for lanes: the destination, the v registers read in their order, the mask and the width, and each lane's result
and flags. -/
structure Rules.LaneRule where
  d : Reg
  reads : List Reg
  m : MReg
  w : Nat
  value : Nat → Nat
  flags : Nat → FFlags := fun _ => 0

/-- A rule whose lanes are float results. -/
def Rules.floats (d : Reg) (reads : List Reg) (m : MReg) (w : Nat) (f : Nat → FRes) : Rules.LaneRule :=
  { d := d, reads := reads, m := m, w := w, value := fun j => (f j).1, flags := fun j => (f j).2 }

/-- A rule whose lanes are encodings, without flags. -/
def Rules.ints (d : Reg) (reads : List Reg) (m : MReg) (w : Nat) (f : Nat → Nat) : Rules.LaneRule :=
  { d := d, reads := reads, m := m, w := w, value := f }

/-- The lane of a v register as an operand, and its value as a float. -/
def Rules.l (s : State) (t : LaneTy) (r : Reg) (j : Nat) : Nat := lane (s.v r) (laneBits t) j

/-- A lane as a float value. -/
def Rules.lf (s : State) (t : LaneTy) (r : Reg) (j : Nat) : FVal := (fmtOf t).unpack (Rules.l s t r j)

/-- A result whose flags also hold DZ when the operand is a zero. -/
def Rules.orDZ (s : State) (t : LaneTy) (a : Reg) (j : Nat) (r : FRes) : FRes :=
  (r.1, r.2 ||| flagIf true (zeroDZ (Rules.lf s t a j)))

/-- The result of each enabled lane (R185, R187, R188, R193, R120). -/
def Rules.lanes (s : State) : Instr → Option Rules.LaneRule
  | .vadd d a b m t => some (if t.isInt
      then (Rules.ints d [a, b] m (laneBits t) (fun j => Rules.l s t a j + Rules.l s t b j))
      else Rules.floats d [a, b] m (laneBits t)
        (fun j => (fmtOf t).deliver s.mode (fsum s.mode [Rules.lf s t a j, Rules.lf s t b j])))
  | .vsub d a b m t => some (if t.isInt
      then (Rules.ints d [a, b] m (laneBits t) (fun j => (((Rules.l s t a j : Int) - Rules.l s t b j) % 2 ^ laneBits t).toNat))
      else Rules.floats d [a, b] m (laneBits t)
        (fun j => (fmtOf t).deliver s.mode (fsum s.mode [Rules.lf s t a j, (Rules.lf s t b j).negate])))
  | .vmul d a b m t => some (if t.isInt
      then (Rules.ints d [a, b] m (laneBits t) (fun j => Rules.l s t a j * Rules.l s t b j))
      else Rules.floats d [a, b] m (laneBits t)
        (fun j => (fmtOf t).deliver s.mode ((Rules.lf s t a j).mul (Rules.lf s t b j))))
  | .vfma d a b m t => some (Rules.floats d [d, a, b] m (laneBits t) (fun j =>
      (fmtOf t).deliver s.mode (fsum s.mode [(Rules.lf s t a j).mul (Rules.lf s t b j), Rules.lf s t d j])))
  | .vfms d a b m t => some (Rules.floats d [d, a, b] m (laneBits t) (fun j =>
      (fmtOf t).deliver s.mode (fsum s.mode [((Rules.lf s t a j).mul (Rules.lf s t b j)).negate, Rules.lf s t d j])))
  | .vmin d a b m t => some (if t.isInt
      then (Rules.ints d [a, b] m (laneBits t) (fun j =>
               encInt (laneBits t) (min (intOf t (Rules.l s t a j)) (intOf t (Rules.l s t b j)))))
      else Rules.floats d [a, b] m (laneBits t) (fun j => (fmtOf t).minmax false (Rules.l s t a j) (Rules.l s t b j)))
  | .vmax d a b m t => some (if t.isInt
      then (Rules.ints d [a, b] m (laneBits t) (fun j =>
               encInt (laneBits t) (max (intOf t (Rules.l s t a j)) (intOf t (Rules.l s t b j)))))
      else Rules.floats d [a, b] m (laneBits t) (fun j => (fmtOf t).minmax true (Rules.l s t a j) (Rules.l s t b j)))
  | .vand d a b m t => some (Rules.ints d [a, b] m (laneBits t) (fun j => Rules.l s t a j &&& Rules.l s t b j))
  | .vor d a b m t => some (Rules.ints d [a, b] m (laneBits t) (fun j => Rules.l s t a j ||| Rules.l s t b j))
  | .vxor d a b m t => some (Rules.ints d [a, b] m (laneBits t) (fun j => Rules.l s t a j ^^^ Rules.l s t b j))
  | .vandn d a b m t => some (Rules.ints d [a, b] m (laneBits t) (fun j => (BitVec.ofNat (laneBits t) (Rules.l s t a j)
        &&& ~~~ BitVec.ofNat (laneBits t) (Rules.l s t b j)).toNat))
  | .vshl d a b m t => some (Rules.ints d [a, b] m (laneBits t) (fun j => Rules.l s t a j * 2 ^ (Rules.l s t b j % laneBits t)))
  | .vshr d a b m t => some (Rules.ints d [a, b] m (laneBits t) (fun j => Rules.l s t a j / 2 ^ (Rules.l s t b j % laneBits t)))
  | .vsra d a b m t => some (Rules.ints d [a, b] m (laneBits t) (fun j =>
        ((BitVec.ofNat (laneBits t) (Rules.l s t a j)).sshiftRight (Rules.l s t b j % laneBits t)).toNat))
  | .vabs d a m t => some (Rules.ints d [a] m (laneBits t) (fun j => if t.isInt then (intOf t (Rules.l s t a j)).natAbs
        else Rules.l s t a j % (fmtOf t).signBit))
  | .vneg d a m t => some (Rules.ints d [a] m (laneBits t) (fun j => if t.isInt then 2 ^ laneBits t - Rules.l s t a j
        else Rules.l s t a j ^^^ (fmtOf t).signBit))
  | .vexp2 d a m t => some (Rules.floats d [a] m (laneBits t) (fun j =>
      (fmtOf t).deliver .rne (Rules.lf s t a j).exp2))
  | .vlog2 d a m t => some (Rules.floats d [a] m (laneBits t) (fun j => Rules.orDZ s t a j
      ((fmtOf t).deliver .rne (Rules.lf s t a j).log2)))
  | .vrcp d a m t => some (Rules.floats d [a] m (laneBits t) (fun j => Rules.orDZ s t a j
      ((fmtOf t).deliver .rne (FVal.div (fmtOf t).bits (.fin false 1 0) (Rules.lf s t a j)))))
  | .vrsq d a m t => some (Rules.floats d [a] m (laneBits t) (fun j => Rules.orDZ s t a j
      ((fmtOf t).deliver .rne (Rules.lf s t a j).rsqrt)))
  | .vsqrt d a m t => some (Rules.floats d [a] m (laneBits t) (fun j =>
      (fmtOf t).deliver .rne (FVal.sqrt (fmtOf t).bits (Rules.lf s t a j))))
  | .vbcast d a m t => some (Rules.ints d [] m (laneBits t) (fun _ => (s.x a).toNat))
  | .vperm d a b m t => some (Rules.ints d [a, b] m (laneBits t) (fun j => Rules.l s t a (Rules.l s t b j % (512 / laneBits t))))
  | _ => none

/-- The lanes of a value: an enabled lane holds its result, a disabled one the old lane. -/
def Rules.lanesAre (m : Word) (w : Nat) (old new : Vec) (value : Nat → Nat) : Prop :=
  ∀ j, j < 512 / w → lane new w j = if enabled m w j then value j % 2 ^ w else lane old w j

/-- The flags of a lane operation: those of its enabled lanes and no other (R114). -/
def Rules.flagsAre (m : Word) (w : Nat) (fl : FFlags) (flags : Nat → FFlags) : Prop :=
  ∀ b, fl.getLsbD b = true ↔ ∃ j, j < 512 / w ∧ enabled m w j = true ∧ (flags j).getLsbD b = true

/-- **Lane results.** R183 to R188, R193, R200: a lane instruction with no fault of its pumps pops its input pumps, writes the
result of every enabled lane and keeps the disabled ones, ORs the flags of the enabled lanes into fst, and goes on at
pc + 4. -/
def Rules.VectorLaneResults : Prop :=
  ∀ (s : State) (i : Instr) (r : Rules.LaneRule), Rules.lanes s i = some r → s.pumpFault r.reads [r.d] = none →
    Completes i s (fun t => ∃ v fl, WritesV (s.popAll r.reads) t r.d v (s.proc.pc + 4) fl
      ∧ Rules.lanesAre (s.m r.m) r.w ((s.popAll r.reads).proc.rv r.d) v r.value
      ∧ Rules.flagsAre (s.m r.m) r.w fl r.flags)

/-- The v registers that a vector instruction reads and writes, in the order in which its pumps are checked. -/
def Rules.pumpUse : Instr → Option (List Reg × List Reg)
  | .vadd d a b _ _ | .vsub d a b _ _ | .vmul d a b _ _ | .vmin d a b _ _ | .vmax d a b _ _ | .vand d a b _ _
  | .vor d a b _ _ | .vxor d a b _ _ | .vandn d a b _ _ | .vshl d a b _ _ | .vshr d a b _ _ | .vsra d a b _ _
  | .vsel d a b _ _ | .vperm d a b _ _ => some ([a, b], [d])
  | .vfma d a b _ _ | .vfms d a b _ _ => some ([d, a, b], [d])
  | .vabs d a _ _ | .vneg d a _ _ | .vexp2 d a _ _ | .vlog2 d a _ _ | .vrcp d a _ _ | .vrsq d a _ _ | .vsqrt d a _ _
  | .vcvt d a _ _ _ _ => some ([a], [d])
  | .vrng d _ _ | .vbcast d _ _ _ | .vins d _ _ _ _ => some ([], [d])
  | .vdot _ a b _ _ | .vcmpEq _ a b _ _ | .vcmpNe _ a b _ _ | .vcmpLt _ a b _ _ | .vcmpLe _ a b _ _ => some ([a, b], [])
  | .vredSum _ a _ _ | .vredMin _ a _ _ | .vredMax _ a _ _ | .vext _ a _ _ => some ([a], [])
  | .vmxq d a _ => some ([a, a + 1], [d])
  | .vmxd d b _ => some ([b], [d, d + 1])
  | _ => none

/-- **Pump faults.** R82, R200: a vector instruction one of whose pumps faults raises that fault, and pops, appends and writes
nothing. The order of the pump faults is the model's reading: a missing page right of a pop first, then an input pump at its
count, then an output pump at its count (log entries 41 and 91). -/
def Rules.VectorPumpFaults : Prop :=
  ∀ (s : State) (i : Instr) (rd wr : List Reg) (f : Flt), Rules.pumpUse i = some (rd, wr) →
    s.pumpFault rd wr = some f → exec i s = .next (s.raise f)

/-- **Lane instructions.** R82, R183 to R188, R193, R200: their results, and the faults of their pumps. That a pump which is
written keeps its register is log entry 42, and the values of vexp2 and vlog2, correctly rounded, are log entry 8. -/
def Obligations.VectorLanes : Prop := Rules.VectorLaneResults ∧ Rules.VectorPumpFaults


/-- **Selects, inserts, draws and conversions.** R187, R188, R193, R194, R119: vsel writes every lane, from va where its mask
bit is 1 and from vb elsewhere; vins writes one lane, if it is enabled; vrng gives each enabled lane the top bits of the
next output of the stream; vcvt converts each enabled lane, an .sr form drawing one output a lane. -/
def Obligations.VectorSelectConvert : Prop :=
  ∀ (s : State) (d a b : Reg) (m : MReg) (t f : LaneTy) (r : Bool),
    (s.pumpFault [a, b] [d] = none → Completes (.vsel d a b m t) s (fun u => ∃ v,
      WritesV (s.popAll [a, b]) u d v (s.proc.pc + 4) 0 ∧ ∀ j, j < 512 / laneBits t →
        lane v (laneBits t) j = if enabled (s.m m) (laneBits t) j then Rules.l s t a j else Rules.l s t b j))
    ∧ (s.pumpFault [] [d] = none → Completes (.vins d a b m t) s (fun u => ∃ v,
      WritesV s u d v (s.proc.pc + 4) 0 ∧ ∀ j, j < 512 / laneBits t →
        lane v (laneBits t) j =
          if j = (s.x b).toNat % (512 / laneBits t) ∧ enabled (s.m m) (laneBits t) j
          then (s.x a).toNat % 2 ^ laneBits t else lane (s.proc.rv d) (laneBits t) j))
    ∧ (s.pumpFault [] [d] = none → Completes (.vrng d m t) s (fun u => ∃ v,
      WritesV (s.drawn (enabledBelow (s.m m) (laneBits t) (512 / laneBits t))) u d v (s.proc.pc + 4) 0
      ∧ Rules.lanesAre (s.m m) (laneBits t) (s.proc.rv d) v
          (fun j => (s.draw (enabledBelow (s.m m) (laneBits t) j)).toNat / 2 ^ (64 - laneBits t))))
    ∧ (s.pumpFault [a] [d] = none → Completes (.vcvt d a m t f r) s (fun u => ∃ v fl,
      WritesV ((s.popAll [a]).drawn (if r then
          enabledBelow (s.m m) (max (laneBits t) (laneBits f)) (512 / max (laneBits t) (laneBits f)) else 0))
        u d v (s.proc.pc + 4) fl
      ∧ Rules.lanesAre (s.m m) (max (laneBits t) (laneBits f)) ((s.popAll [a]).proc.rv d) v (fun j =>
          (convert s.mode t f r ((s.draw (enabledBelow (s.m m) (max (laneBits t) (laneBits f)) j)).toNat / 2 ^ 32)
            (lane (s.v a) (max (laneBits t) (laneBits f)) j)).1)
      ∧ Rules.flagsAre (s.m m) (max (laneBits t) (laneBits f)) fl (fun j =>
          (convert s.mode t f r ((s.draw (enabledBelow (s.m m) (max (laneBits t) (laneBits f)) j)).toNat / 2 ^ 32)
            (lane (s.v a) (max (laneBits t) (laneBits f)) j)).2)))

/-- The word and the flags of a dot product or a reduction (R186, R190). -/
def Rules.folded (s : State) : Instr → Option (Reg × List Reg × Word × FFlags)
  | .vdot d a b m t =>
    if t.isInt then some (d, [a, b], BitVec.ofInt 64 (dotInt t (s.m m) (s.v a) (s.v b)), 0)
    else
      let r := treeValue (sumNode (dotFmt t) s.mode) (0, 0)
        (dotPairs (dotFmt t) s.mode (dotTerms t (s.m m) (s.v a) (s.v b)))
      some (d, [a, b], BitVec.ofNat 64 r.1, r.2)
  | .vredSum d a m t => some (reduced d a m t 0 (fun x y => (x + y) % 2 ^ laneBits t) (fmtOf t).signBit
      (sumNode (fmtOf t) s.mode))
  | .vredMin d a m t => some (reduced d a m t (encInt (laneBits t) (intHi t)) (intMinmax t false) (fmtOf t).infBits
      (minmaxNode (fmtOf t) false))
  | .vredMax d a m t => some (reduced d a m t (encInt (laneBits t) (intLo t)) (intMinmax t true)
      ((fmtOf t).signed true (fmtOf t).infBits) (minmaxNode (fmtOf t) true))
  | .vext d a b t => some (d, [a], extendTo t (lane (s.v a) (laneBits t) ((s.x b).toNat % (512 / laneBits t))), 0)
  | _ => none
where
  /-- The tree over the lanes, a disabled lane standing for the identity. -/
  reduced (d a : Reg) (m : MReg) (t : LaneTy) (ii : Nat) (fi : Nat → Nat → Nat) (fid : Nat) (ff : FRes → FRes → FRes) :
      Reg × List Reg × Word × FFlags :=
    if t.isInt then (d, [a], extendTo t (treeValue fi 0 (redLanes t (s.m m) (s.v a) ii)), 0)
    else
      let r := treeValue ff (0, 0) ((redLanes t (s.m m) (s.v a) fid).map plain)
      (d, [a], BitVec.ofNat 64 r.1, r.2)

/-- **Dot products and reductions.** R121, R186, R190, R193: vdot and the reductions write the value of the pairwise tree over
the enabled lanes to gd as data, a disabled lane standing for the identity, and OR the flags of its nodes into fst; vext
writes one lane. -/
def Obligations.VectorReductions : Prop :=
  ∀ (s : State) (i : Instr) (d : Reg) (rd : List Reg) (v : Word) (fl : FFlags),
    Rules.folded s i = some (d, rd, v, fl) → s.pumpFault rd [] = none →
    Completes i s (fun t => WritesG (s.popAll rd) t d (dataReg v) (s.proc.pc + 4) fl)

/-- The comparison that a vcmp makes. -/
def Rules.vcmp : Instr → Option (FCmp × MReg × Reg × Reg × MReg × LaneTy)
  | .vcmpEq d a b m t => some (.eq, d, a, b, m, t)
  | .vcmpNe d a b m t => some (.ne, d, a, b, m, t)
  | .vcmpLt d a b m t => some (.lt, d, a, b, m, t)
  | .vcmpLe d a b m t => some (.le, d, a, b, m, t)
  | _ => none

/-- **Vector compares.** R189: every mask bit of an enabled lane's bytes holds the lane's comparison, those of a disabled lane
are 0; a write to m0 is discarded. -/
def Rules.VectorCompares : Prop :=
  ∀ (s : State) (i : Instr) (c : FCmp) (d : MReg) (a b : Reg) (m : MReg) (t : LaneTy),
    Rules.vcmp i = some (c, d, a, b, m, t) → t ≠ .e2m1 → s.pumpFault [a, b] [] = none →
    Completes i s (fun u => ∃ v fl, WritesM (s.popAll [a, b]) u d v fl
      ∧ (∀ k, k < 64 → v.getLsbD k =
          (enabled (s.m m) (laneBits t) (k / (laneBits t / 8))
            && laneCmp c t (Rules.l s t a (k / (laneBits t / 8))) (Rules.l s t b (k / (laneBits t / 8)))))
      ∧ Rules.flagsAre (s.m m) (laneBits t) fl
          (fun j => laneCmpFlags c t (Rules.l s t a j) (Rules.l s t b j)))

/-- **Microscaling.** R195: vmxq writes the block of the 32 lanes of va and va + 1 with its scale, ORs the flags of its elements
and keeps the largest magnitude in amax; vmxd writes the 32 expanded elements to vd and vd + 1. -/
def Obligations.VectorMicroscaling : Prop :=
  ∀ (s : State) (d a : Reg) (t : LaneTy),
    (s.pumpFault [a, a + 1] [d] = none → Completes (.vmxq d a t) s (fun u =>
      WritesV ((s.popAll [a, a + 1]).updProc (fun p => { p with
          amax := mxAmax p.amax (lanes (s.v a) 32 ++ lanes (s.v (a + 1)) 32) })) u d
        (mxReg t ((mxBlock t (lanes (s.v a) 32 ++ lanes (s.v (a + 1)) 32)).1.map Prod.fst)
          (mxBlock t (lanes (s.v a) 32 ++ lanes (s.v (a + 1)) 32)).2) (s.proc.pc + 4)
        ((mxBlock t (lanes (s.v a) 32 ++ lanes (s.v (a + 1)) 32)).1.foldl (fun acc r => acc ||| r.2) 0)))
    ∧ (s.pumpFault [a] [d, d + 1] = none → Completes (.vmxd d a t) s (fun u => ∃ z,
      WritesV (s.popAll [a]) z d
        (pack 32 ((((mxElems t (s.v a)).map (mxExpand t (mxScale (s.v a)))).take 16).map Prod.fst)) s.proc.pc 0
      ∧ WritesV z u (d + 1)
        (pack 32 ((((mxElems t (s.v a)).map (mxExpand t (mxScale (s.v a)))).drop 16).map Prod.fst)) (s.proc.pc + 4)
        (((mxElems t (s.v a)).map (mxExpand t (mxScale (s.v a)))).foldl (fun acc r => acc ||| r.2) 0)))

/-- The lanes' offsets of a strided or an indexed access, and the registers read first (R192). -/
def Rules.elements (s : State) : Instr → Option (Bool × Reg × Reg × MReg × LaneTy × List Reg × (Nat → Int) × Option Flt)
  | .vlds d a b m t => some (false, d, a, m, t, [], fun j => (s.x b).toInt * j, none)
  | .vsts d a b m t => some (true, d, a, m, t, [], fun j => (s.x b).toInt * j, none)
  | .vgat d a b m t => some (false, d, a, m, t, [b], fun j => (lane (s.v b) (laneBits t) j : Int), s.offsetFault a b m t false)
  | .vsct d a b m t => some (true, d, a, m, t, [b], fun j => (lane (s.v b) (laneBits t) j : Int), s.offsetFault a b m t true)
  | _ => none

/-- **Unit-stride vector accesses.** R191, R74: vld and vst check all 64 bytes whatever the mask; vld writes the enabled lanes
of vd from memory and changes no byte, vst stores the bytes of the enabled lanes only, each in one event for each 8 bytes,
lowest first, between which engines, pumps and blocks may move theirs and, before the first of which, a scalar access of the
same tc may come; a failing check raises its first fault. What comes between the events is a free choice (log entries 3 and
115). -/
def Obligations.VectorLoadStore : Prop :=
  ∀ (s : State) (d a : Reg) (o : BitVec 5) (m : MReg) (t : LaneTy),
    (∀ addr z l, s.check (vldAccess (s.g a) a o false) = .ok addr → s.pumpFault [] [d] = none →
      (s.walkFor s.cur.vt addr 64).readVector ((List.range 8).map (fun u => (addr + 8 * u, 8))) = (z, l) →
      Completes (.vld d a o m t) s (fun u => ∃ v,
        WritesV z u d v (s.proc.pc + 4) 0 ∧ SameBytes z u
        ∧ Rules.lanesAre (s.m m) (laneBits t) (s.proc.rv d) v
            (lane (BitVec.ofNat 512 (ofBytes l.flatten)) (laneBits t))))
    ∧ (∀ addr, s.check (vldAccess (s.g a) a o true) = .ok addr → s.pumpFault [d] [] = none →
      Completes (.vst d a o m t) s (fun u => GoesTo
        (((s.popAll [d]).walkFor s.cur.vt addr 64).writeVector
          (octetWrites (laneBits t) (s.v d) addr (enabledLanes (s.m m) (laneBits t)))) u (s.proc.pc + 4)))
    ∧ (∀ v addr, (octetWrites (laneBits t) v addr (enabledLanes (s.m m) (laneBits t))).length = 8
      ∧ ∀ u x, u < 8 → x ∈ (octetWrites (laneBits t) v addr (enabledLanes (s.m m) (laneBits t))).getD u [] ↔
          ∃ j, j < 512 / laneBits t ∧ enabled (s.m m) (laneBits t) j ∧ laneBits t / 8 * j / 8 = u
            ∧ x = (addr + laneBits t / 8 * j, toBytes (laneBits t / 8) (lane v (laneBits t) j)))
    ∧ (∀ f, s.check (vldAccess (s.g a) a o false) = .error f → exec (.vld d a o m t) s = .next (s.raise f))
    ∧ ∀ f, s.check (vldAccess (s.g a) a o true) = .error f → exec (.vst d a o m t) s = .next (s.raise f)

/-- **Pumps of an offset register.** R82, R192: vgat and vsct whose offset register pops a pump with a page right missing, or at
its count, raise that fault before any element is checked against it; at its count only after the tag and the perms of ga
when a lane is enabled, and those faults come first then, an order that is the model's reading (log entry 18). -/
def Rules.OffsetFaults : Prop :=
  ∀ (s : State) (d a b : Reg) (m : MReg) (t : LaneTy) (st : Bool),
    (∀ f, s.offsetFault a b m t st = some f →
      exec (if st then .vsct d a b m t else .vgat d a b m t) s = .next (s.raise f))
    ∧ (∀ f, s.popPage b = some f → s.offsetFault a b m t st = some f)
    ∧ (s.popPage b = none → s.popEmpty b = none → s.offsetFault a b m t st = none)
    ∧ ∀ f, s.popPage b = none → s.popEmpty b = some f →
      ((∀ j, j < 512 / laneBits t → enabled (s.m m) (laneBits t) j = false) → s.offsetFault a b m t st = some f)
      ∧ ((∃ j, j < 512 / laneBits t ∧ enabled (s.m m) (laneBits t) j = true) →
        s.offsetFault a b m t st = some (
          if (s.g a).tag = false then Rules.capFlt (elemAccess (s.g a) a (laneBits t) 0 st) codeCapTag (s.g a).cursor.toNat
          else if (s.g a).perms &&& (if st then permS else permL) ≠ (if st then permS else permL) then
            Rules.capFlt (elemAccess (s.g a) a (laneBits t) 0 st) codeCapPerm (s.g a).cursor.toNat
          else f))

/-- **The events of a vector access.** R74: those that a vector access has had before a scalar access of the same tc are its
first, in order; the rest follow, and with none had all follow. -/
def Rules.VectorEvents : Prop :=
  ∀ (s : State),
    (s.here.ahead = none → (∀ l, s.readVector l = s.readParts 0 l) ∧ ∀ l, s.writeVector l = s.writeParts 0 l)
    ∧ ∀ h, s.here.ahead = some h → h.who = s.cur.who →
      (∀ l z bs, s.readParts h.bytes.length h.reads = (z, bs) → s.readVector l = (z, h.bytes ++ bs))
      ∧ ∀ l, s.writeVector l = s.writeParts (l.length - h.writes.length) h.writes

/-- **Strided and indexed vector accesses.** R192, R74: every enabled element is checked in ascending lane order before any is
moved; then the loads fill the enabled lanes and change no byte, and the stores write the enabled lanes in ascending
order, one event an element, between which others may have theirs as between those of vld and vst; the first failing check
is raised. -/
def Rules.ElementAccesses : Prop :=
  ∀ (s : State) (i : Instr) (st : Bool) (d a : Reg) (m : MReg) (t : LaneTy) (pre : List Reg) (off : Nat → Int),
    Rules.elements s i = some (st, d, a, m, t, pre, off, none) →
    (∀ f, s.elemPlaces (fun j => elemAccess (s.g a) a (laneBits t) (off j) st) (enabledLanes (s.m m) (laneBits t))
      = .error f → exec i s = .next (s.raise f))
    ∧ ∀ l, s.elemPlaces (fun j => elemAccess (s.g a) a (laneBits t) (off j) st) (enabledLanes (s.m m) (laneBits t))
      = .ok l →
      (st = false → s.pumpFault pre [d] = none → ∀ z bs,
        ((s.popAll pre).walkElems (laneBits t / 8) l).readVector (l.map (fun e => (e.2, laneBits t / 8))) = (z, bs) →
        Completes i s (fun u => WritesV z u d
          (gathered (laneBits t) ((s.popAll pre).proc.rv d) l bs) (s.proc.pc + 4) 0 ∧ SameBytes z u))
      ∧ (st = true → s.pumpFault (pre ++ [d]) [] = none → Completes i s (fun u =>
        GoesTo (((s.popAll (pre ++ [d])).walkElems (laneBits t / 8) l).writeVector
          (l.map (fun e => [(e.2, toBytes (laneBits t / 8) (lane (s.v d) (laneBits t) e.1))]))) u
          (s.proc.pc + 4)))

/-- **Vector element accesses.** R82, R74, R192: strided and indexed accesses, the faults of an offset register's pump, and the
order of the events of a vector access. The order of the faults of an offset register is log entry 18, and what may come
between the events is log entries 3 and 115. -/
def Obligations.VectorElementAccesses : Prop := Rules.ElementAccesses ∧ Rules.OffsetFaults ∧ Rules.VectorEvents

/-- What a mask instruction writes to a mask register, and to a g register (R196). -/
def Rules.maskResult (s : State) : Instr → Option (MReg × Word)
  | .mand d a b => some (d, s.m a &&& s.m b)
  | .mor d a b => some (d, s.m a ||| s.m b)
  | .mxor d a b => some (d, s.m a ^^^ s.m b)
  | .mnot d a => some (d, ~~~ s.m a)
  | .mset d a => some (d, s.x a)
  | _ => none

/-- **Mask instructions.** R130, R196: each writes its mask register, a write to m0 being discarded, or the count of 1 bits, the
index of the lowest 1 bit (64 when there is none) or the mask to gd; m0 reads as all ones, and a field that names a mask
register above 7 makes the word no instruction. -/
def Rules.MaskResults : Prop :=
  (∀ (s : State) (i : Instr) (d : MReg) (v : Word), Rules.maskResult s i = some (d, v) →
    Completes i s (fun t => WritesM s t d v 0))
  ∧ ∀ (s : State) (d : Reg) (a : MReg),
    Completes (.mpop d a) s (fun t => Writes s t d (BitVec.cpop (s.m a)))
    ∧ Completes (.mfst d a) s (fun t => Writes s t d (BitVec.ctz (s.m a)))
    ∧ Completes (.mget d a) s (fun t => Writes s t d (s.m a))
    ∧ s.m 0 = BitVec.allOnes 64
    ∧ (∀ x y, Rules.CodeIs (.mand x a y) 0x3A 10 0 ∧ Rules.CodeIs (.mor x a y) 0x3A 10 1
      ∧ Rules.CodeIs (.mxor x a y) 0x3A 10 2 ∧ Rules.CodeIs (.mnot x a) 0x3A 10 3 ∧ Rules.CodeIs (.mpop d a) 0x3A 10 4
      ∧ Rules.CodeIs (.mfst d a) 0x3A 10 5 ∧ Rules.CodeIs (.mset x d) 0x3A 10 6 ∧ Rules.CodeIs (.mget d a) 0x3A 10 7)
    ∧ ∀ w i, decode w = .ok i → fMajor w = 0x3A →
      ((fFn10 w ≤ 3 ∨ fFn10 w = 6) → fD w < 8) ∧ (fFn10 w ≠ 6 → fA w < 8) ∧ (fFn10 w ≤ 2 → fB w < 8)

/-- **Compares and masks.** R130, R189, R196: vector compares, and the mask instructions. -/
def Obligations.ComparesAndMasks : Prop := Rules.VectorCompares ∧ Rules.MaskResults



/-! rep, pumps and the engines. -/

/-- **rep.** R143, R197, R198: a word that rep may not repeat raises ILLEGAL; a count of 0 goes on over the repeated word; an
iteration that would name a register above 31 raises REP_RANGE with its index, one whose word is no instruction ILLEGAL
with that word; else one iteration of the word with its
fields advanced executes, and once it has completed gc holds the next index and the count less 1, the pc standing at the
rep until the last one. -/
def Obligations.RepIterations : Prop :=
  ∀ (s : State) (a : Reg) (k : BitVec 3),
    (repeatable (s.here.fetchNext s.cur.who) = false → exec (.rep a k) s = .next (s.raise
        { code := codeIllegal, aux := (wordOf (.rep a k)).setWidth 64 }))
    ∧ (repeatable (s.here.fetchNext s.cur.who) = true →
      ((s.x a).toNat % 2 ^ 32 = 0 → Completes (.rep a k) s (fun t => GoesTo s t (s.proc.pc + 8)))
      ∧ ((s.x a).toNat % 2 ^ 32 ≠ 0 →
        (repOver (s.here.fetchNext s.cur.who) k ((s.x a).toNat / 2 ^ 32) = true → exec (.rep a k) s = .next (s.raise
            { code := codeRepRange, aux := BitVec.ofNat 64 ((s.x a).toNat / 2 ^ 32) }))
        ∧ (∀ e, repOver (s.here.fetchNext s.cur.who) k ((s.x a).toNat / 2 ^ 32) = false →
          decode (repWord (s.here.fetchNext s.cur.who) k ((s.x a).toNat / 2 ^ 32)) = .error e →
          exec (.rep a k) s = .next (s.raise { code := codeIllegal, aux :=
            (repWord (s.here.fetchNext s.cur.who) k ((s.x a).toNat / 2 ^ 32)).setWidth 64 }))
        ∧ (repOver (s.here.fetchNext s.cur.who) k ((s.x a).toNat / 2 ^ 32) = false → ∀ i u,
          decode (repWord (s.here.fetchNext s.cur.who) k ((s.x a).toNat / 2 ^ 32)) = .ok i →
          bExec i s = .next u → u.proc.pc = s.proc.pc + 4 →
          Completes (.rep a k) s (fun t => WritesG u t a
            (dataReg (BitVec.ofNat 64 (((s.x a).toNat / 2 ^ 32 + 1) % 2 ^ 32 * 2 ^ 32 + ((s.x a).toNat % 2 ^ 32 - 1))))
            (if (s.x a).toNat % 2 ^ 32 = 1 then s.proc.pc + 8 else s.proc.pc) 0))))

/-- **Pump binding.** R199: pbind.in and pbind.out of a pump not bound, with a stride that is a multiple of 64 and every
element allowed (with none, the tag and the perms), bind the pump at position 0 and change nothing else; a wrong stride or
a pump already bound raises ENG_DESC that names the pump. -/
def Rules.PumpBinding : Prop :=
  ∀ (s : State) (a b : Reg) (k : BitVec 2) (out : Bool),
    (((s.x b).setWidth 32 : BitVec 32).toInt % 64 = 0 → (s.proc.pump k.toNat).bound = false →
      (∀ j, j < (s.x b).toNat / 2 ^ 32 → ∃ addr, s.check (bindAccess (s.g a) a
        (((s.x b).setWidth 32 : BitVec 32).toInt * j) out) = .ok addr) →
      ((s.x b).toNat / 2 ^ 32 = 0 → bindPerms (s.g a) a out = none) →
      Completes (if out then .pbindOut a b k else .pbindIn a b k) s (fun t =>
        OnlyContext s t ∧ { t.proc with pumps := s.proc.pumps, pc := s.proc.pc } = s.proc ∧ t.proc.pc = s.proc.pc + 4
        ∧ t.proc.pump k.toNat = { cap := s.g a, desc := s.x b, bound := true, out := out }
        ∧ ∀ j, j ≠ k.toNat → t.proc.pump j = s.proc.pump j))
    ∧ ((((s.x b).setWidth 32 : BitVec 32).toInt % 64 ≠ 0 ∨ (s.proc.pump k.toNat).bound = true) →
      exec (if out then .pbindOut a b k else .pbindIn a b k) s = .next (s.raise
        { code := codeEngDesc, objk := 3, obj := k.setWidth 8 }))

/-- **Pump status, drain and release.** R201: pstat writes the position, whether the pump is bound, its direction and whether
it has undrained elements; pdrain and pfree go on at once unless the pump is a bound output with an appended element not
yet written, pfree releasing the binding of a bound pump and leaving an unbound one as it is; else the process waits. -/
def Rules.PumpStatusAndRelease : Prop :=
  ∀ (s : State) (d : Reg) (k : BitVec 2),
    Completes (.pstat d k) s (fun t => Writes s t d
      (BitVec.ofNat 64 ((s.proc.pump k.toNat).pos.toNat + (if (s.proc.pump k.toNat).bound then 2 ^ 32 else 0)
        + (if (s.proc.pump k.toNat).out then 2 ^ 33 else 0) + (if (s.proc.pump k.toNat).pend = [] then 0 else 2 ^ 34))))
    ∧ (((s.proc.pump k.toNat).bound = false ∨ (s.proc.pump k.toNat).out = false ∨ (s.proc.pump k.toNat).pend = []) →
      Completes (.pdrain k) s (fun t => GoesTo s t (s.proc.pc + 4))
      ∧ Completes (.pfree k) s (fun t => OnlyContext s t
        ∧ { t.proc with pumps := s.proc.pumps, pc := s.proc.pc } = s.proc ∧ t.proc.pc = s.proc.pc + 4
        ∧ t.proc.pump k.toNat = (if (s.proc.pump k.toNat).bound then {} else s.proc.pump k.toNat)
        ∧ ∀ j, j ≠ k.toNat → t.proc.pump j = s.proc.pump j))
    ∧ ((s.proc.pump k.toNat).bound = true → (s.proc.pump k.toNat).out = true → (s.proc.pump k.toNat).pend ≠ [] →
      s.inMonitor = false →
      Completes (.pdrain k) s (fun t => Blocks s t { word := wordOf (.pdrain k), kind := .fence })
      ∧ Completes (.pfree k) s (fun t => Blocks s t { word := wordOf (.pfree k), kind := .fence }))

/-- **Pumps.** R199, R201: binding, status, wait, peek and release. That a pump bound or released begins with every field zero is
log entry 45, and that the monitor has pumps of its own is log entry 91. -/
def Obligations.InputAndOutputPumps : Prop := Rules.PumpBinding ∧ Rules.PumpStatusAndRelease


/-- The accumulator's command joins the matrix queue; its in-flight bit is read off the queue from now on. -/
def Rules.matQueued (s : State) (v : VTile) (c : BitVec 3) (h : AccShape) (op : MatOp) : VTile :=
  { v with im := { v.im with
    accs := Sparse.upd v.im.accs c.toNat (fun a => { a with flight := none })
    mats := v.im.mats ++ [{ acc := c, slot := s.slot, shape := h, op := op }] } }

/-- The vtile with an accumulator's status changed. -/
def Rules.accIs (v : VTile) (c : BitVec 3) (a : AccStatus) : VTile :=
  { v with im := { v.im with accs := Sparse.set v.im.accs c.toNat a } }

/-- The executing context at the next instruction. -/
def Rules.onward (s : State) : Proc := { s.proc with pc := s.proc.pc + 4 }

/-- **Accumulator ownership.** R204 to R206: mclaim of a free accumulator claims it in the shape and queues its zeroing; of
one's own it changes the shape with a zeroing, or does nothing when the shape is the same; every accumulator instruction
on one that another slot or nobody owns raises ACC_OWNER and queues nothing. -/
def Rules.AccumulatorOwnership : Prop :=
  ∀ (s : State) (c : BitVec 3) (h : AccShape), s.inMonitor = false →
    ((s.here.acc c).valid = false → Completes (.mclaim c h) s (fun t => Becomes s t
      (Rules.matQueued s (Rules.accIs s.here c { s.here.acc c with valid := true, owner := s.slot, shape := h }) c h
        .claimZero)
      { Rules.onward s with claimed := s.proc.claimed ||| (1#8 <<< c.toNat) }))
    ∧ (s.here.owns s.cur.who c = true → (s.here.acc c).shape = h →
      Completes (.mclaim c h) s (fun t => GoesTo s t (s.proc.pc + 4)))
    ∧ (s.here.owns s.cur.who c = true → (s.here.acc c).shape ≠ h → Completes (.mclaim c h) s (fun t => Becomes s t
      (Rules.matQueued s (Rules.accIs s.here c { s.here.acc c with shape := h }) c h .claimZero) (Rules.onward s)))
    ∧ ∀ i, (i = .mfree c ∨ i = .mzero c ∨ i = .mwait c ∨ (∃ a b, i = .mld c a b) ∨ (∃ a b x t, i = .mst c a b x t)
        ∨ (∃ a b x t, i = .mma c a b x t) ∨ (i = .mclaim c h ∧ (s.here.acc c).valid = true)) →
      s.here.owns s.cur.who c = false → ∃ f : Flt, f.code = codeAccOwner ∧ f.aux.setWidth 3 = c
        ∧ f.aux.getLsbD 7 = (s.here.acc c).valid ∧ exec i s = .next (s.raise f)

/-- **Accumulator waits.** R206, R207: mstat writes the status word; mzero of one's own accumulator queues its zeroing; mwait
and mfree of one not in flight go on at once, mfree releasing it, and of one in flight the process waits. -/
def Rules.AccumulatorWaits : Prop :=
  ∀ (s : State) (c : BitVec 3) (d : Reg), s.inMonitor = false →
    Completes (.mstat c d) s (fun t => Writes s t d (s.here.accWord c (s.here.owns s.cur.who c)))
    ∧ Rules.CodeIs (.mstat c d) 0x57 20 (d.toNat * 2 ^ 15)
    ∧ (s.here.owns s.cur.who c = true →
      Completes (.mzero c) s (fun t => Becomes s t (Rules.matQueued s s.here c (s.here.acc c).shape .zero) (Rules.onward s))
      ∧ (s.here.inFlight c = false →
        Completes (.mwait c) s (fun t => GoesTo s t (s.proc.pc + 4))
        ∧ Completes (.mfree c) s (fun t => Becomes s t (Rules.accIs s.here c { s.here.acc c with valid := false })
            { Rules.onward s with claimed := s.proc.claimed &&& ~~~ (1#8 <<< c.toNat) }))
      ∧ (s.here.inFlight c = true →
        Completes (.mwait c) s (fun t => Blocks s t { word := wordOf (.mwait c), kind := .mwait })
        ∧ Completes (.mfree c) s (fun t => Blocks s t { word := wordOf (.mfree c), kind := .mwait })))

/-- **Accumulators.** R204 to R207: claims, ownership, status, and waits. That mfree leaves the other bits of the status is log
entry 44, and what the record of ACC_OWNER shows of an accumulator that nobody owns is log entry 48. -/
def Obligations.Accumulators : Prop := Rules.AccumulatorOwnership ∧ Rules.AccumulatorWaits


/-- **Matrix commands.** R208, R212, R213: mld, mst and mma of one's own accumulator with a valid pitch, type and scale and
allowed footprints queue one command with what they read, and go on; a bad pitch of mld raises ENG_DESC. -/
def Obligations.MatrixCommands : Prop :=
  ∀ (s : State) (c : BitVec 3) (a b x : Reg) (y : BitVec 5), s.inMonitor = false → s.here.owns s.cur.who c = true →
    (∀ addr, (s.x b).toNat < 65536 → (s.x b).toNat % 64 = 0 → 128 ≤ (s.x b).toNat →
      s.check (matAccess (s.g a) a 0 ((shapeRows (s.here.acc c).shape - 1) * (s.x b).toNat + 128) false) = .ok addr →
      Completes (.mld c a b) s (fun t => Becomes s t
        (Rules.matQueued s s.here c (s.here.acc c).shape (.load addr (s.x b).toNat)) (Rules.onward s)))
    ∧ ((65536 ≤ (s.x b).toNat ∨ (s.x b).toNat % 64 ≠ 0 ∨ (s.x b).toNat < 128) →
      exec (.mld c a b) s = .next (s.raise { code := codeEngDesc }))
    ∧ (∀ addr, mstAccepts (s.here.acc c).shape y = true → (mstScaled y = true → badScale (s.x x) = false) →
      (s.x b).toNat < 65536 → (s.x b).toNat % 64 = 0 → mstRow (s.here.acc c).shape y ≤ (s.x b).toNat →
      s.check (matAccess (s.g a) a 0 (mstSpan (s.here.acc c).shape y (s.x b).toNat) true) = .ok addr →
      Completes (.mst c a b x y) s (fun t => Becomes s t
        (Rules.matQueued s s.here c (s.here.acc c).shape (.store addr (s.x b).toNat y ((s.x x).setWidth 32))) (Rules.onward s)))
    ∧ ∀ pa pb, (s.x x).toNat < 2 ^ 42 → (mmaType y).shape = (s.here.acc c).shape →
      (operandA (mmaType y) 0 (s.x x)).pitchOk = true → (operandB (mmaType y) 0 (s.x x)).pitchOk = true →
      s.check (matAccess (s.g a) a 0 (operandA (mmaType y) 0 (s.x x)).span false) = .ok pa →
      s.check (matAccess (s.g b) b 1 (operandB (mmaType y) 0 (s.x x)).span false) = .ok pb →
      Completes (.mma c a b x y) s (fun t => Becomes s t
        (Rules.matQueued s s.here c (mmaType y).shape (.mma pa pb (s.x x) y)) (Rules.onward s))

/-- A copy joins the copy queue with its id and its slot. -/
def Rules.copyQueued (s : State) (v : VTile) (c : Copy) : VTile :=
  { v with
    im := { v.im with
      copies := Sparse.set v.im.copies (freeEntry v.im.copies)
        { c with id := s.copyId, owner := s.slot, order := v.copyOrder } }
    copyOrder := v.copyOrder + 1 }

/-- The executing context once a copy has taken its id: the id in gd and in cpid, the counter past it. -/
def Rules.copyTaken (s : State) (d : Reg) : Proc :=
  { ({ s.proc with nextCid := s.copyId + 1, cpid := s.copyId }).wg d (dataReg (s.copyId.setWidth 64)) with
    pc := s.proc.pc + 4 }

/-- **cpy.** R214 to R216: a copy of a multiple of 8 bytes, at most 1 GiB, whose footprints are allowed, is queued with its
addresses and its length and writes its id; one of 0 bytes takes an id and queues nothing; any other length raises
ENG_DESC. -/
def Rules.LocalCopyIssue : Prop :=
  ∀ (s : State) (d a b c : Reg), s.inMonitor = false →
    (∀ dst src, (s.x c).toNat ≤ 0x40000000 → (s.x c).toNat % 8 = 0 →
      s.check (copyAccess (s.g a) a 0 0 (s.x c).toNat 8 permS) = .ok dst →
      s.check (copyAccess (s.g b) b 1 0 (s.x c).toNat 8 permL) = .ok src →
      ((s.x c).toNat ≠ 0 → Completes (.cpy d a b c) s (fun t =>
        Becomes s t (Rules.copyQueued s s.here {
            kind := .cpy, src := BitVec.ofNat 32 src, dst := BitVec.ofNat 32 dst,
            lend := BitVec.ofNat 32 (s.x c).toNat, total := ((s.x c).toNat + 63) / 64 }) (Rules.copyTaken s d)))
      ∧ ((s.x c).toNat = 0 → Completes (.cpy d a b c) s (fun t => Becomes s t s.here (Rules.copyTaken s d))))
    ∧ ((0x40000000 < (s.x c).toNat ∨ (s.x c).toNat % 8 ≠ 0) →
      exec (.cpy d a b c) s = .next (s.raise { code := codeEngDesc }))

/-- **Tensor copies.** R217 to R219: cpyt and cpyr whose descriptor may be read and written, is well formed, and gives allowed
ranges are queued as the descriptor says; a bad field raises ENG_DESC at its offset. -/
def Rules.TensorCopyIssue : Prop :=
  ∀ (s : State) (d a b c : Reg) (y o : BitVec 2) (red : Bool) (da : Nat) (l : List Byte), s.inMonitor = false →
    s.check (descAccess (s.g c) c) = .ok da → l = s.readBytes s.cur.vt da 128 →
    (∀ off, descBad l (if red then cpyrSize y else 1) = some off →
      exec (if red then .cpyr d a b c y o else .cpyt d a b c) s = .next (s.raise
        { code := codeEngDesc, aux := BitVec.ofNat 64 off }))
    ∧ (∀ dst src, descBad l (if red then cpyrSize y else 1) = none →
      s.check (rangeAccess (s.g a) a 0 ((descDims l).map (fun e => (e.count, e.dstr))) (descEsz l)
        (if red then permL ||| permS else permS)) = .ok dst →
      s.check (rangeAccess (s.g b) b 1 ((descDims l).map (fun e => (e.count, e.sstr))) (descEsz l) permL) = .ok src →
      Completes (if red then .cpyr d a b c y o else .cpyt d a b c) s (fun t => OnlyTile s t s.cur.vt
        ∧ t.proc = Rules.copyTaken s d
        ∧ Sparse.get t.here.im.copies (freeEntry s.here.im.copies) =
          {
            kind := if red then .cpyr else .cpyt,
            ty := if red then y else 0, op := if red then o else 0,
            src := (s.g b).cursor, dst := (s.g a).cursor, lend := BitVec.ofNat 32 da, dcrc := descCrc l,
            prog := BitVec.ofNat 41 (descProg l), esz := descEsz l, dims := descDims l, total := descTotal l (descNd l),
            id := s.copyId, owner := s.slot, order := s.here.copyOrder }
        ∧ ∀ e, e ≠ freeEntry s.here.im.copies → Sparse.get t.here.im.copies e = Sparse.get s.here.im.copies e))

/-- **Local copies.** R214 to R219: cpy, cpyt and cpyr at issue. That a copy of 0 bytes takes an id is log entry 82, and the
offset that stands for a bad field is log entry 40. -/
def Obligations.LocalCopies : Prop := Rules.LocalCopyIssue ∧ Rules.TensorCopyIssue


/-- **External copies.** R221: cpyx.out and cpyx.in whose aperture, offset, length and port are accepted and whose footprint is
allowed are queued with them; any other raises ENG_DESC. -/
def Obligations.ExternalCopyIssue : Prop :=
  ∀ (s : State) (d a b c : Reg) (isIn : Bool), s.inMonitor = false →
    (s.badExternal (s.x b).toNat (s.x c).toNat isIn = true →
      exec (if isIn then .cpyxIn d a b c else .cpyxOut d a b c) s = .next (s.raise { code := codeEngDesc }))
    ∧ ∀ addr, s.badExternal (s.x b).toNat (s.x c).toNat isIn = false →
      s.check (copyAccess (s.g a) a 0 0 (s.x c).toNat 64 (if isIn then permS else permL)) = .ok addr →
      Completes (if isIn then .cpyxIn d a b c else .cpyxOut d a b c) s (fun t => OnlyTile s t s.cur.vt
        ∧ t.proc = Rules.copyTaken s d
        ∧ Sparse.get t.here.im.copies (freeEntry s.here.im.copies) =
          {
            kind := if isIn then .xin else .xout,
            port := (s.x b).extractLsb' 8 6, apt := (s.x b).setWidth 8,
            xoff := (s.x b).extractLsb' 30 34 |>.setWidth 39, lend := BitVec.ofNat 32 (s.x c).toNat,
            src := if isIn then 0 else BitVec.ofNat 32 addr, dst := if isIn then BitVec.ofNat 32 addr else 0,
            total := (s.x c).toNat / 64, since := s.time, id := s.copyId, owner := s.slot, order := s.here.copyOrder }
        ∧ ∀ e, e ≠ freeEntry s.here.im.copies → Sparse.get t.here.im.copies e = Sparse.get s.here.im.copies e)

/-- What cabort leaves of memory: the progress of a tensor copy stands at offset 8 of its descriptor, and every other byte
is as before (R220, R223). -/
def Rules.progRecorded (s t : State) (c : Copy) : Prop :=
  (c.kind ≠ .cpyt ∧ c.kind ≠ .cpyr → SameBytes s t)
  ∧ (c.kind = .cpyt ∨ c.kind = .cpyr → c.lend.toNat + 128 ≤ storeHi →
    t.readBytes s.cur.vt (c.lend.toNat + 8) 8 = toBytes 8 c.prog.toNat
    ∧ ∀ k b, ¬(k = s.cur.vt ∧ c.lend.toNat + 8 ≤ b ∧ b < c.lend.toNat + 16) → t.readByte k b = s.readByte k b)

/-- **Copy waits and fences.** R77, R223, R220: cpoll writes 1 for a copy complete and 0 for one outstanding; cwait and fence
go on at once when what they wait for has ended, and else the process waits; cabort goes on at once: of an id not
outstanding it changes nothing, of a local copy, or of a cpyx with no element under way, it frees the entry, the progress
of a tensor copy being recorded in its descriptor, and a cpyx with elements under way it marks as aborting since now;
no other byte of memory and no other entry changes. A cpy that is writing an element stops at its boundary: what of the element
is not written yet is written first, as it was read. -/
def Obligations.CopyWaitsAndFences : Prop :=
  ∀ (s : State) (d a : Reg) (f : BitVec 2), s.inMonitor = false →
    Completes (.cpoll d a) s (fun t => Writes s t d (if s.here.copyOut s.cur.who ((s.x a).setWidth 16) then 0 else 1))
    ∧ (s.here.copyOut s.cur.who ((s.x a).setWidth 16) = false →
      Completes (.cwait a) s (fun t => GoesTo s t (s.proc.pc + 4))
      ∧ Completes (.cabort a) s (fun t => GoesTo s t (s.proc.pc + 4)))
    ∧ (s.here.copyOut s.cur.who ((s.x a).setWidth 16) = true →
      Completes (.cwait a) s (fun t => Blocks s t
        { word := wordOf (.cwait a), kind := .cwait, target := ((s.x a).setWidth 16 : BitVec 16).setWidth 64 }))
    ∧ (∀ e c, s.proc.st = .ready → s.here.entryOf s.cur.who ((s.x a).setWidth 16) = some e →
      Sparse.get s.here.im.copies e = c → c.kind = .cpy → c.wrote ≠ [] → Completes (.cabort a) s (fun t =>
        Sparse.get t.here.im.copies e = {} ∧ t.proc = Rules.onward s
        ∧ ((c.element c.prog.toNat).2.1 + (unitBytes c.early c.prog.toNat (c.element c.prog.toNat).2.2).length ≤ wellLo →
          ∀ b, b < (unitBytes c.early c.prog.toNat (c.element c.prog.toNat).2.2).length → t.readByte s.cur.vt ((c.element c.prog.toNat).2.1 + b) =
            if 8 * c.prog.toNat + b / 8 ∈ c.wrote then s.readByte s.cur.vt ((c.element c.prog.toNat).2.1 + b)
            else (unitBytes c.early c.prog.toNat (c.element c.prog.toNat).2.2).getD b 0)))
    ∧ (∀ e c, s.proc.st = .ready → s.here.entryOf s.cur.who ((s.x a).setWidth 16) = some e →
      Sparse.get s.here.im.copies e = c → c.wrote = [] → Completes (.cabort a) s (fun t =>
        Sparse.get t.here.im.copies e = (if c.isLocal ∨ c.sent = [] then {}
          else if c.st = 2 then c else { c with st := 2, since := s.time })
        ∧ t.proc = Rules.onward s ∧ Rules.progRecorded s t c
        ∧ ∀ j, j ≠ e → Sparse.get t.here.im.copies j = Sparse.get s.here.im.copies j))
    ∧ (s.here.fenceOver s.cur.who f = true → Completes (.fence f) s (fun t => GoesTo s t (s.proc.pc + 4)))
    ∧ (s.here.fenceOver s.cur.who f = false →
      Completes (.fence f) s (fun t => Blocks s t { word := wordOf (.fence f), kind := .fence }))

/-! Channels, latches and processes. -/

/-- The transfer that a channel instruction asks for (R228, R229). -/
def Rules.xfer : Instr → Option Xfer
  | .send d e r => some { op := .send, e := e.toNat, d := d, s := r, i := .send d e r }
  | .sendT d e r => some { op := .send, e := e.toNat, d := d, s := r, timed := true, i := .sendT d e r }
  | .recv d e r => some { op := .recv, e := e.toNat, d := d, s := r, i := .recv d e r }
  | .recvT d e r => some { op := .recv, e := e.toNat, d := d, s := r, timed := true, i := .recvT d e r }
  | .sendv d e r => some { op := .sendv, e := e.toNat, d := d, s := r, i := .sendv d e r }
  | .recvv d e r => some { op := .recvv, e := e.toNat, d := d, s := r, i := .recvv d e r }
  | .sendb d e r x => some { op := .sendb, e := e.toNat, d := d, s := r, x := x, i := .sendb d e r x }
  | .recvb d e r x => some { op := .recvb, e := e.toNat, d := d, s := r, x := x, i := .recvb d e r x }
  | _ => none

/-- The state at the issue of a deadline form: the time it compares its deadline with is in the log (log entry 19). -/
def Rules.stamped (s : State) (timed : Bool) : State :=
  if timed then s.log s.cur.vt { slot := s.slot, obj := timeMark } else s

/-- A message from an end of the executing vtile to its peer on this panel, as it enters the fabric. -/
def Rules.message (s : State) (e : Nat) (m : MsgKind) : Msg :=
  { src := { vt := s.cur.vt, idx := e }
    dst := { vt := s.cur.vt / 65536 * 65536 + (s.here.endAt e).pvt.toNat, idx := (s.here.endAt e).pend.toNat }
    kind := m
    tile := s.standsAt s.cur.vt (s.cur.vt / 65536 * 65536 + (s.here.endAt e).pvt.toNat) }

/-- The peer of an end hears what the end says: it stands on this panel and is not lost, or on another one behind a live link
with a working lane; and the tile is not in replay. -/
def Rules.peerHere (s : State) (e : Nat) : Prop :=
  s.cur.vt < 2 ^ 32 ∧ s.here.replay = none
    ∧ ((s.here.endAt e).xp = false → (s.tile (s.cur.vt / 65536 * 65536 + (s.here.endAt e).pvt.toNat)).lost = false)
    ∧ ((s.here.endAt e).xp = true → s.linkLive (opticalBase + (s.here.endAt e).port.toNat) = true
      ∧ (Sparse.get s.optPorts (s.here.endAt e).port.toNat).lanes ≠ [])

/-- The peer of an end of the executing vtile. -/
def Rules.peer (s : State) (e : Nat) : EndRef :=
  { vt := if (s.here.endAt e).xp then farKey (s.here.endAt e).pvt.toNat
      else s.cur.vt / 65536 * 65536 + (s.here.endAt e).pvt.toNat
    idx := (s.here.endAt e).pend.toNat }

/-- The lane of a port on which its next flit leaves (R349). -/
def Rules.nextLane (s : State) (port : Nat) : Nat :=
  (Sparse.get s.optPorts port).lanes.getD
    ((Sparse.get s.optPorts port).tx % (Sparse.get s.optPorts port).lanes.length) 0

/-- An end of the executing vtile has said one control message to its peer: one on this panel enters the fabric; one to another
panel leaves at once through the port of the channel, as a codeword of one flit with the number of its lane (R42, R349; that
the last codeword leaves with what it has is log entry 99). -/
def Rules.says (s t : State) (e : Nat) (m : MsgKind) : Prop :=
  ((s.here.endAt e).xp = false → t.msgs = s.msgs ++ [Rules.message s e m] ∧ t.farOut = s.farOut)
    ∧ ((s.here.endAt e).xp = true → t.msgs = s.msgs ∧ t.farOut = s.farOut ++ [{
        port := (s.here.endAt e).port.toNat, lane := Rules.nextLane s (s.here.endAt e).port.toNat
        seq := (Sparse.get s.lanes ((s.here.endAt e).port.toNat * 64 + Rules.nextLane s (s.here.endAt e).port.toNat)).txSeq
        flits := [{ msg := { src := { vt := s.cur.vt, idx := e }, dst := Rules.peer s e, kind := m }, idx := 0, of_ := 1 }] }])

/-- Every end of the executing vtile but one is as before, and every context but the executing one. -/
def Rules.onlyEnd (s t : State) (e : Nat) : Prop :=
  (∀ j, j ≠ e → t.here.endAt j = s.here.endAt j) ∧ (∀ q, q ≠ s.cur.who → t.here.proc q = s.here.proc q)
    ∧ (∀ k, k ≠ s.cur.vt → t.tile k = s.tile k) ∧ SameBytes s t ∧ t.cur = s.cur

/-- The executing process BLOCKED in a wait (R22, R59). -/
def Rules.blocked (s : State) (w : Wait) : Proc :=
  { s.proc with st := .blocked, wait := w, btime := 0, gen := s.proc.gen + 1, ageing := 0, aged := false }

/-- **Transfers at issue.** R38, R46, R229, R230: a transfer whose end is not the process's own, or wrong in direction, kind or
length, raises its fault; on an end CLOSED or BROKEN it completes with CLOSED at once; with no offer of the peer recorded
it offers, or with its deadline past completes with TIMEOUT; with one recorded it claims; on an end that a select has claimed
an input sends its go and an output streams, once no go is owed; the process that waits is BLOCKED at the instruction. What the end says goes to its peer on this panel or on another one. The time that
a deadline form enters in the log is the model's choice: log entry 19; that a claim consumes the recorded offer, with its
length, is log entry 37; that a go carries the length of the block is log entry 97. -/
def Obligations.TransferIssue : Prop :=
  ∀ (s : State) (i : Instr) (z : Xfer), Rules.xfer i = some z → s.inMonitor = false → s.here.replay = none →
    (∀ f, s.xferFault z = some f → exec i s = .next ((Rules.stamped s z.timed).raise f))
    ∧ (s.xferFault z = none →
      ((s.here.endAt z.e).gone = true → Completes i s (fun t => Rules.onlyEnd s t 256 ∧ t.msgs = s.msgs
        ∧ t.proc = { s.proc.wg z.s (dataReg (statusWord stClosed (some z.e) 0)) with pc := s.proc.pc + 4 }))
      ∧ ((s.here.endAt z.e).gone = false → (s.here.endAt z.e).hold = false →
        ((s.here.endAt z.e).po = false → s.past (s.xferWait z) = true →
          Completes i s (fun t => Rules.onlyEnd s t 256 ∧ t.msgs = s.msgs
            ∧ t.proc = { s.proc.wg z.s (dataReg (statusWord stTimeout (some z.e) 0)) with pc := s.proc.pc + 4 }))
        ∧ ((s.here.endAt z.e).po = false → s.past (s.xferWait z) = false → Rules.peerHere s z.e →
          Completes i s (fun t => Rules.onlyEnd s t z.e ∧ t.proc = Rules.blocked s (s.xferWait z)
            ∧ t.here.endAt z.e = { s.here.endAt z.e with
                st := .offered, oo := true, sentSeq := (s.here.endAt z.e).sentSeq + 1 }
            ∧ Rules.says s t z.e (.offer false (BitVec.ofNat 11 ((s.xferWait z).len / 64)))))
        ∧ ((s.here.endAt z.e).po = true → (s.here.endAt z.e).ownedBy s.cur.who = true → s.cur.who < 8 →
          Rules.peerHere s z.e →
          Completes i s (fun t => Rules.onlyEnd s t z.e ∧ t.proc = Rules.blocked s (s.xferWait z)
            ∧ t.here.endAt z.e = { s.here.endAt z.e with
                st := .claimed, po := false, psel := false, plen := 0, claiming := true,
                claimWait := !s.past (s.xferWait z), peerLen := 64 * (s.here.endAt z.e).plen.toNat,
                sentSeq := (s.here.endAt z.e).sentSeq + 1 }
            ∧ Rules.says s t z.e (.claim false (!s.past (s.xferWait z)) (BitVec.ofNat 11 ((s.xferWait z).len / 64))))))
      ∧ ((s.here.endAt z.e).gone = false → (s.here.endAt z.e).hold = true → (s.here.endAt z.e).ownedBy s.cur.who = true →
        s.cur.who < 8 → Rules.peerHere s z.e → Completes i s (fun t => Rules.onlyEnd s t z.e
          ∧ t.proc = Rules.blocked s { s.xferWait z with timed := false }
          ∧ ((s.here.endAt z.e).input = true → Rules.says s t z.e (.go (BitVec.ofNat 11 ((s.xferWait z).len / 64)))
            ∧ t.here.endAt z.e = { s.here.endAt z.e with hold := false, sentSeq := (s.here.endAt z.e).sentSeq + 1 })
          ∧ ((s.here.endAt z.e).input = false → (s.here.endAt z.e).wgo = true → t.msgs = s.msgs
            ∧ t.here.endAt z.e = { s.here.endAt z.e with hold := false })
          ∧ ((s.here.endAt z.e).input = false → (s.here.endAt z.e).wgo = false →
            (t.here.endAt z.e).st = .transferring ∧ ∃ m : Msg, t.msgs = s.msgs ++ [m] ∧ m.src = ⟨s.cur.vt, z.e⟩
              ∧ m.dst = Rules.peer s z.e ∧ m.isData = true))))

/-- The wait of a select: its guards are bits of the masks in gd and gx, its first end the base (R232). -/
def Rules.selectWait (s : State) (d : Reg) (b : BitVec 2) (r x : Reg) (timed : Bool) : Wait :=
  { word := wordOf (if timed then .selectT d b r x else .select d b r x), kind := .select, timed := timed,
    deadline := if timed then s.x r else 0, endMask := s.x d, guardMask := s.x x, sReg := r, base := b.toNat * 64 }

/-- The guards of a select that are neither CLOSED nor BROKEN, in rotation order: those after the end last chosen, then the
others (R47, R48). -/
def Rules.rotation (s : State) (w : Wait) : List Nat :=
  (w.guards.filter (fun e => !(s.here.endAt e).gone)).filter (fun e => decide (s.proc.lastEnd.toNat < e))
    ++ (w.guards.filter (fun e => !(s.here.endAt e).gone)).filter (fun e => decide (e ≤ s.proc.lastEnd.toNat))

/-- **Selects at issue.** R47 to R49, R232: a select by a process that holds a claim, or with a guard that faults, raises
CHAN_END; with every guard's end CLOSED or BROKEN, or no guard, it completes with CLOSED at once; else it is BLOCKED, and
asks for the first ready guard in rotation order, with a claim, or of a guard's own offer with a confirmation request; with
no guard to ask for and no deadline past it offers on every usable guard, saying so to the peers in rotation order. That the
record of a select by a process that holds a claim names the end of that claim is the model's choice (log entry 120), as is
the time in the log (log entry 19); that what it asks for consumes the recorded offer is log entry 37. -/
def Obligations.SelectIssue : Prop :=
  ∀ (s : State) (d : Reg) (b : BitVec 2) (r x : Reg) (timed : Bool) (i : Instr) (w : Wait),
    i = (if timed then .selectT d b r x else .select d b r x) → w = Rules.selectWait s d b r x timed →
    s.inMonitor = false → s.here.replay = none →
    (∀ h, s.here.heldEnd s.cur.who = some h →
      exec i s = .next ((Rules.stamped s timed).raise (chanFlt 5 h)))
    ∧ (s.here.heldEnd s.cur.who = none →
      (∀ f, w.guards.findSome? (s.here.guardFault s.cur.who) = some f →
        exec i s = .next ((Rules.stamped s timed).raise f))
      ∧ (w.guards.findSome? (s.here.guardFault s.cur.who) = none →
        ((∀ e, e ∈ w.guards → (s.here.endAt e).gone = true) → Completes i s (fun t =>
          Rules.onlyEnd s t 256 ∧ t.msgs = s.msgs
          ∧ t.proc = { s.proc.wg r (dataReg (statusWord stClosed none 0)) with pc := s.proc.pc + 4 }))
        ∧ ((∃ e, e ∈ w.guards ∧ (s.here.endAt e).gone = false) → (∀ e, e ∈ w.guards → (s.here.endAt e).gone = false → s.askable s.cur.vt e = false) →
          s.past w = false → Completes i s (fun t => t.proc = Rules.blocked s w
            ∧ (∀ e, e ∈ w.guards → (s.here.endAt e).gone = false → (t.here.endAt e).oo = true)
            ∧ ((∀ e, e ∈ w.guards → (s.here.endAt e).gone = false → Rules.peerHere s e ∧ (s.here.endAt e).xp = false) →
              t.msgs = s.msgs ++ ((Rules.rotation s w).filter (fun e => !(s.here.endAt e).oo)).map
                (fun e => Rules.message s e (.offer true 0)))
            ∧ ∀ e, e ∉ w.guards → t.here.endAt e = s.here.endAt e))
        ∧ ∀ e, (Rules.rotation s w).find? (s.askable s.cur.vt) = some e → s.cur.who < 8 → Rules.peerHere s e →
          Completes i s (fun t => Rules.onlyEnd s t e ∧ t.proc = Rules.blocked s { w with asking := some e }
            ∧ (t.here.endAt e).st = .claimed ∧ (t.here.endAt e).po = false ∧ (t.here.endAt e).claiming = true
            ∧ (t.here.endAt e).tent = ((s.here.endAt e).tent || (s.here.endAt e).psel)
            ∧ Rules.says s t e (if (s.here.endAt e).psel then .confirm (!s.past w) else .claim true (!s.past w) 0))))

/-- **Looking at ends and giving them.** R234, R235: probe and chst write the words of an end the process owns; chgive makes
another slot with a process its owner, and an end given to an EMPTY or EXITED slot closes as on its owner's exit; an end
UNBOUND or not one's own raises CHAN_END 1 or 2, and chgive of a matched one CHAN_END 6. -/
def Obligations.EndInspection : Prop :=
  ∀ (s : State) (d : Reg) (e : BitVec 8), s.inMonitor = false →
    (∀ i, (i = .probe d e ∨ i = .chst d e ∨ i = .chgive d e) →
      ((s.here.endAt e.toNat).st = .unbound → ∃ f : Flt, f.code = codeChanEnd ∧ f.aux = 1 ∧ f.obj = e
        ∧ exec i s = .next (s.raise f))
      ∧ ((s.here.endAt e.toNat).st ≠ .unbound → (s.here.endAt e.toNat).ownedBy s.cur.who = false →
        ∃ f : Flt, f.code = codeChanEnd ∧ f.aux = 2 ∧ f.obj = e ∧ exec i s = .next (s.raise f)))
    ∧ ((s.here.endAt e.toNat).st ≠ .unbound → (s.here.endAt e.toNat).ownedBy s.cur.who = true →
      Completes (.probe d e) s (fun t => Writes s t d (s.here.endAt e.toNat).probeWord)
      ∧ Completes (.chst d e) s (fun t => Writes s t d (s.here.endAt e.toNat).chstWord)
      ∧ (((s.here.endAt e.toNat).st = .claimed ∨ (s.here.endAt e.toNat).st = .transferring) →
        ∃ f : Flt, f.code = codeChanEnd ∧ f.aux = 6 ∧ f.obj = e ∧ exec (.chgive d e) s = .next (s.raise f))
      ∧ (((s.here.endAt e.toNat).st = .idle ∨ (s.here.endAt e.toNat).st = .offered) →
        (s.here.endAt e.toNat).inbuf = none → (s.x d).toNat % 8 ≠ s.cur.who →
        ((s.here.proc ((s.x d).toNat % 8)).st = .empty ∨ (s.here.proc ((s.x d).toNat % 8)).st = .exited) →
        Completes (.chgive d e) s (fun t => Rules.onlyEnd s t e.toNat ∧ t.proc = Rules.onward s
          ∧ (t.here.endAt e.toNat).st = .closed ∧ (t.here.endAt e.toNat).ov = false ∧ (t.here.endAt e.toNat).oo = false
          ∧ (t.here.endAt e.toNat).po = false
          ∧ (Rules.peerHere s e.toNat → (s.here.endAt e.toNat).xp = false → t.msgs = s.msgs
              ++ (if (s.here.endAt e.toNat).oo then [Rules.message s e.toNat .withdrawal] else [])
              ++ [Rules.message s e.toNat .close])))
      ∧ ((s.here.endAt e.toNat).st ≠ .claimed → (s.here.endAt e.toNat).st ≠ .transferring →
        (s.here.proc ((s.x d).toNat % 8)).st ≠ .empty → (s.here.proc ((s.x d).toNat % 8)).st ≠ .exited →
        Completes (.chgive d e) s (fun t => Rules.onlyEnd s t e.toNat ∧ t.proc = Rules.onward s ∧ t.msgs = s.msgs
          ∧ t.here.endAt e.toNat = { s.here.endAt e.toNat with
              owner := if (s.x d).toNat % 8 = s.cur.who then (s.here.endAt e.toNat).owner
                else BitVec.ofNat 3 ((s.x d).toNat % 8) })))

/-- The aux of a latch fault: the phase of the tile's record, 0 when the tile keeps none (R81). -/
def Rules.latchAux (s : State) (e : Nat) : Word := if s.here.hasRecord e then (s.here.latch e).lp.setWidth 64 else 0

/-- **Latch instructions.** R53, R55, R236: a process that is no member raises LATCH_MEMBER, and one that has arrived
LATCH_OVER; latarr returns the tile's phase, sets the slot's arrival bit and tells the home; latdrop also clears the
membership; latwait goes on once the phase has reached its target, and else the process waits. -/
def Obligations.LatchInstructions : Prop :=
  ∀ (s : State) (d : Reg) (e : BitVec 8), s.inMonitor = false →
    (s.proc.memb.getLsbD e.toNat = false → ∀ i, (i = .latarr d e ∨ i = .latdrop e ∨ i = .latwait d e) →
      exec i s = .next (s.raise
        { code := codeLatchMember, aux := Rules.latchAux s e.toNat, objk := 2, obj := e }))
    ∧ (s.proc.memb.getLsbD e.toNat = true →
      ((s.here.latch e.toNat).arr.getLsbD s.cur.who = true → ∀ i, (i = .latarr d e ∨ i = .latdrop e) →
        exec i s = .next (s.raise
          { code := codeLatchOver, aux := Rules.latchAux s e.toNat, objk := 2, obj := e }))
      ∧ ((s.here.latch e.toNat).arr.getLsbD s.cur.who = false →
        Completes (.latarr d e) s (fun t => SameBytes s t
          ∧ t.proc = { s.proc.wg d (dataReg ((s.here.latch e.toNat).lp.setWidth 64)) with pc := s.proc.pc + 4 }
          ∧ t.here.latch e.toNat = { s.here.latch e.toNat with
              arr := (s.here.latch e.toNat).arr ||| slotBit (BitVec.ofNat 3 s.cur.who) }
          ∧ (∀ j, j ≠ e.toNat → t.here.latch j = s.here.latch j)
          ∧ (∀ q, q ≠ s.cur.who → t.here.proc q = s.here.proc q)
          ∧ (s.here.replay = none → s.latHome s.cur.vt e.toNat < 2 ^ 60 → (s.tile (s.latHome s.cur.vt e.toNat)).lost = false →
            ∃ m : Msg, t.msgs = s.msgs ++ [m] ∧ m.kind = .latArrive ∧ m.src = ⟨s.cur.vt, 256 + e.toNat⟩
              ∧ m.dst = ⟨s.latHome s.cur.vt e.toNat, 256 + e.toNat⟩))
        ∧ Completes (.latdrop e) s (fun t => SameBytes s t
          ∧ t.proc = { Rules.onward s with memb := s.proc.memb &&& ~~~ (1#256 <<< e.toNat) }
          ∧ (t.here.latch e.toNat).arr = (s.here.latch e.toNat).arr ||| slotBit (BitVec.ofNat 3 s.cur.who)
          ∧ (t.here.latch e.toNat).lp = (s.here.latch e.toNat).lp
          ∧ (∀ j, j ≠ e.toNat → t.here.latch j = s.here.latch j)
          ∧ (∀ q, q ≠ s.cur.who → t.here.proc q = s.here.proc q)
          ∧ (s.here.replay = none → s.latHome s.cur.vt e.toNat < 2 ^ 60 → (s.tile (s.latHome s.cur.vt e.toNat)).lost = false →
            ∃ m : Msg, t.msgs = s.msgs ++ [m] ∧ m.kind = .latDrop ∧ m.src = ⟨s.cur.vt, 256 + e.toNat⟩
              ∧ m.dst = ⟨s.latHome s.cur.vt e.toNat, 256 + e.toNat⟩)))
      ∧ (0 ≤ ((s.here.latch e.toNat).lp - (s.x d).setWidth 16).toInt →
        Completes (.latwait d e) s (fun t => GoesTo s t (s.proc.pc + 4)))
      ∧ (((s.here.latch e.toNat).lp - (s.x d).setWidth 16).toInt < 0 →
        Completes (.latwait d e) s (fun t => Blocks s t
          { word := wordOf (.latwait d e), kind := .latwait,
            target := ((s.x d).setWidth 16 : BitVec 16).setWidth 64 })))

/-- The context of a process that starts in a slot: its registers, its pc and its status words (R18, R24). -/
structure Rules.Starts (p : Proc) (q : Nat) (wellHi : Nat) (key : Word) (entry : Pc) (arg num : Word) (prio : BitVec 2) :
    Prop where
  stack : p.rg 2 = mkCap (BitVec.ofNat 32 (0x001C0000 + q * 0x4000 + 0x4000)) (BitVec.ofNat 32 (0x001C0000 + q * 0x4000))
    (BitVec.ofNat 32 (0x001C0000 + q * 0x4000 + 0x4000)) 31
  store : p.rg 3 = mkCap 0x00000800 0x00000800 0x001E0000 31
  well : p.rg 4 = mkCap 0x40000000 0x40000000 (BitVec.ofNat 32 wellHi) 19
  argument : p.rg 5 = dataReg arg
  number : p.rg 6 = dataReg num
  others : ∀ r : Reg, r.toNat < 2 ∨ 6 < r.toNat → p.rg r = {}
  rest : { p with g := [], pc := 0, rngk := 0, pnum := 0, prio := 0 } = { ({} : Proc) with st := .ready }
  start : p.pc = entry
  stream : p.rngk = rngH key num
  pnum : p.pnum = num
  priority : p.prio = prio

/-- A slot has outstanding work: a matrix command, a copy, or an appended element not written (R22). -/
def Rules.outstanding (v : VTile) (q : Nat) : Bool :=
  v.hasMat q || v.hasCopy q (fun c => decide (c.kind ≠ .none))
    || (v.proc q).pumps.any (fun e => e.2.out && !e.2.pend.isEmpty)

/-- **spawn, yield and exit.** R18, R24 to R26, R32, R237, R238: spawn with an empty pool takes the lowest EMPTY slot, writes the
child's number and OK with the slot, and starts the child there, to issue from the next tc on; with no EMPTY slot it joins
the pool of 8, and else nothing but the status FULL is written; yield goes on; exit leaves the slot EMPTY, or EXITED while
it has work outstanding, with none of its ends owned. That its registers stand until the next start is the model's choice:
log entry 11; that the child is READY from the issue on, and held until the next tc, is log entry 16. -/
def Obligations.ProcessLifetime : Prop :=
  ∀ (s : State) (d a b x : Reg), s.inMonitor = false → s.cur.who < 8 → s.proc.st = .ready →
    (∀ q, s.spawnsOut s.cur.vt = false → s.here.im.pool = [] → s.here.emptySlot = some q →
      Completes (.spawn d a b x) s (fun t => OnlyTile s t s.cur.vt
        ∧ t.proc = { (s.proc.wg d (dataReg s.here.im.spawnCtr)).wg x (dataReg (statusWord stOk (some q) 0)) with
            pc := s.proc.pc + 4 }
        ∧ t.here.im.spawnCtr = s.here.im.spawnCtr + 1
        ∧ Rules.Starts (t.here.proc q) q (s.wellHi s.cur.vt) (Sparse.get s.here.im.consts 16)
            (BitVec.ofNat 18 ((s.x a).toNat % 2 ^ 18 / 4 * 4)) (s.x b) s.here.im.spawnCtr s.proc.prio
        ∧ (∀ p, t.here.candidate p q = false)
        ∧ ∀ j, j ≠ s.cur.who → j ≠ q → t.here.proc j = s.here.proc j))
    ∧ (s.spawnsOut s.cur.vt = false → (s.here.im.pool ≠ [] ∨ s.here.emptySlot = none) → s.here.im.pool.length < 8 →
      Completes (.spawn d a b x) s (fun t => OnlyTile s t s.cur.vt
        ∧ t.proc = { (s.proc.wg d (dataReg s.here.im.spawnCtr)).wg x (dataReg (statusWord stOk none 0)) with
            pc := s.proc.pc + 4 }
        ∧ t.here.im.spawnCtr = s.here.im.spawnCtr + 1
        ∧ t.here.im.pool = s.here.im.pool ++ [PoolEntry.mk (BitVec.ofNat 18 ((s.x a).toNat % 2 ^ 18 / 4 * 4)) (s.x b)
            s.proc.prio s.here.im.spawnCtr]
        ∧ ∀ j, j ≠ s.cur.who → t.here.proc j = s.here.proc j))
    ∧ ((s.spawnsOut s.cur.vt = true ∨ ((s.here.im.pool ≠ [] ∨ s.here.emptySlot = none) ∧ 8 ≤ s.here.im.pool.length)) →
      Completes (.spawn d a b x) s (fun t => Writes s t x (statusWord stFull none 0)))
    ∧ Completes .yield s (fun t => GoesTo s t (s.proc.pc + 4))
    ∧ Completes .exit s (fun t => SameBytes s t
      ∧ (Rules.outstanding s.here s.cur.who = false → t.proc.st = .empty)
      ∧ (t.proc.g = s.proc.g ∧ t.proc.v = s.proc.v ∧ t.proc.m = s.proc.m ∧ t.proc.pnum = s.proc.pnum)
      ∧ (Rules.outstanding s.here s.cur.who = true → t.proc.st = .exited)
      ∧ ∀ e, (s.here.endAt e).st ≠ .unbound → (s.here.endAt e).ownedBy s.cur.who = true →
          (t.here.endAt e).ov = false)

/-! Status words, time, the random stream. -/

/-- The status word with a number as rds reads it (R131). -/
def Rules.statusWord (s : State) : Nat → Word
  | 0 => BitVec.ofNat 64 s.proc.fst.toNat
  | 1 => BitVec.ofNat 64 s.proc.frm.toNat
  | 2 => s.proc.amax
  | 3 => s.proc.rngk
  | 4 => s.proc.rngn
  | 5 => s.proc.pnum
  | 6 => BitVec.ofNat 64 s.here.num
  | 7 => BitVec.ofNat 64 (if s.inMonitor then 0 else s.cur.who)
  | 8 => BitVec.ofNat 64 s.proc.prio.toNat
  | 9 => BitVec.ofNat 64 (s.proc.dlthr.toNat + if s.proc.dlT then 2 ^ 32 else 0)
  | 10 => s.proc.fltc
  | _ => BitVec.ofNat 64 s.proc.cpid.toNat

/-- The executing context with a status word written; the read-only words stay (R131, R239). -/
def Rules.statusWritten (s : State) (v : Word) : Nat → Proc
  | 0 => { Rules.onward s with fst := BitVec.ofNat 5 v.toNat }
  | 1 => { Rules.onward s with frm := BitVec.ofNat 2 v.toNat }
  | 2 => { Rules.onward s with amax := BitVec.ofNat 64 (v.toNat / 2 ^ 63 * 2 ^ 63 + v.toNat % 2 ^ 31) }
  | 3 => { Rules.onward s with rngk := v }
  | 4 => { Rules.onward s with rngn := v }
  | 8 => { Rules.onward s with prio := BitVec.ofNat 2 v.toNat }
  | 9 => { Rules.onward s with dlthr := BitVec.ofNat 32 v.toNat, dlT := v.getLsbD 32 }
  | _ => Rules.onward s

/-- **Status words.** R131, R239: rds writes the word of a process's context to gd as data; wrs writes the writable words,
leaves the read-only ones, and changes nothing else. -/
def Rules.StatusWords : Prop :=
  ∀ (s : State) (d : Reg) (w : BitVec 5), w.toNat ≤ 11 →
    Completes (.rds d w) s (fun t => Writes s t d (Rules.statusWord s w.toNat))
    ∧ Completes (.wrs d w) s (fun t => OnlyContext s t ∧ t.proc = Rules.statusWritten s (s.x d) w.toNat)

/-- **Time, random numbers and checkpoint requests.** R240, R241, R243: time writes the package time counter; rng writes the next
output of the process's stream and moves its counter on by one; rngskip moves it by x; chkpt requests a checkpoint and
goes on. -/
def Rules.TimeAndStream : Prop :=
  ∀ (s : State) (d : Reg),
    (s.here.replay = none → Completes (.time d) s (fun t => SameBytes s t
      ∧ t.proc = { s.proc.wg d (dataReg s.time) with pc := s.proc.pc + 4 }
      ∧ (∀ q, q ≠ s.cur.who → t.here.proc q = s.here.proc q) ∧ ∀ k, k ≠ s.cur.vt → t.tile k = s.tile k))
    ∧ Completes (.rng d) s (fun t => OnlyContext s t
      ∧ t.proc = { (({ s.proc with rngn := s.proc.rngn + 1 } : Proc).wg d
          (dataReg (rngF s.proc.rngk s.proc.rngn))) with pc := s.proc.pc + 4 })
    ∧ Completes (.rngskip d) s (fun t => OnlyContext s t
      ∧ t.proc = { Rules.onward s with rngn := s.proc.rngn + s.x d })
    ∧ Rules.CodeIs (.rng d) 0x70 10 3 ∧ Rules.CodeIs (.rngskip d) 0x70 10 4
    ∧ Completes .chkpt s (fun t => Becomes s t { s.here with ckPending := true } (Rules.onward s))

/-- **Words of the process and of the panel.** R131, R239 to R241, R243: the status words, the time, the random stream and the
request of a checkpoint. What vtid and slot read as in the monitor is the model's choice: log entry 93. -/
def Obligations.StatusTimeAndStream : Prop := Rules.StatusWords ∧ Rules.TimeAndStream


/-! Faults, the return from them, and the monitor. -/

/-- The fault record that the executing process's fault writes (R81, R85). -/
def Rules.record (s : State) (f : Flt) : FaultRec :=
  { code := f.code, slot := BitVec.ofNat 3 s.cur.who, src := 0, objk := f.objk, obj := f.obj,
    pc := s.proc.pc.setWidth 32, addr := f.addr, time := s.time, aux := f.aux }

/-- The executing process PARKED by a fault: the pc at the instruction, fltc counted, saturating, and of a PAGE fault the
page it awaits (R22, R72, R81, R83). -/
def Rules.parked (s : State) (f : Flt) : Proc :=
  { s.proc with
    st := .parked, ageing := 0, aged := false
    fltc := if s.proc.fltc = BitVec.allOnes 64 then s.proc.fltc else s.proc.fltc + 1
    pwait := if f.code = codePage then some (s.proc.pwait.getD (f.aux.setWidth 14)) else s.proc.pwait }

/-- **Taking a fault.** R81 to R87, R72: a fault at issue parks the process with the pc at the instruction; with room in
the queue the record stands at fqtl with its number, and the tail moves on; else the record waits; a PAGE fault on a page
that is outstanding writes no record and joins the page's waiters. -/
def Obligations.TakingAFault : Prop :=
  ∀ (s : State) (f : Flt), s.here.replay = none → s.cur.who < 8 →
    (∀ q, q ≠ s.cur.who → (s.raise f).here.proc q = s.here.proc q)
    ∧ (∀ k, k ≠ s.cur.vt → (s.raise f).tile k = s.tile k) ∧ (s.raise f).proc = Rules.parked s f
    ∧ ((f.code ≠ codePage ∨ s.here.outstanding (f.aux.setWidth 14 : BitVec 14).toNat = false) →
      (s.here.held < 16 → s.here.fqwait = [] →
        FaultRec.ofBytes (Memory.read (s.raise f).here.im.store (0x001E0000 + 32 * (s.here.fqtl.toNat % 16)) 32)
          = Rules.record s f
        ∧ recSeq (Memory.read (s.raise f).here.im.store (0x001E0000 + 32 * (s.here.fqtl.toNat % 16)) 32) = s.here.recNum
        ∧ (s.raise f).here.fqtl = s.here.fqtl + 1 ∧ (s.raise f).here.recNum = s.here.recNum + 1
        ∧ (s.raise f).here.fqwait = [])
      ∧ ((16 ≤ s.here.held ∨ s.here.fqwait ≠ []) →
        (s.raise f).here.fqwait = s.here.fqwait ++ [Rules.record s f] ∧ (s.raise f).here.fqtl = s.here.fqtl
        ∧ (s.raise f).here.im.store = s.here.im.store))
    ∧ (f.code = codePage → s.here.outstanding (f.aux.setWidth 14 : BitVec 14).toNat = true →
      (s.raise f).here.fqtl = s.here.fqtl ∧ (s.raise f).here.fqwait = s.here.fqwait
      ∧ ∀ r, r ∈ s.here.pages → r.page = f.aux.setWidth 14 →
        { r with waiters := r.waiters ||| slotBit (BitVec.ofNat 3 s.cur.who) } ∈ (s.raise f).here.pages)

/-- **Traps and words that are no instruction.** R152, R244, R91: trap and brk raise TRAP and BRK with their immediate in aux, and
a word that is no instruction raises ILLEGAL with the word; in the monitor a fault stops it and requests an emergency
freeze. -/
def Rules.TrapsAndIllegalWords : Prop :=
  ∀ (s : State) (i : BitVec 15) (w : BitVec 32),
    exec (.trap i) s = .next (s.raise { code := 0x04, aux := i.setWidth 64 })
    ∧ exec (.brk i) s = .next (s.raise { code := 0x03, aux := i.setWidth 64 })
    ∧ exec (.illegalEncoding w) s = .next (s.raise { code := 0x01, aux := w.setWidth 64 })
    ∧ Rules.CodeIs (.trap i) 0x71 25 (i.toNat * 2 ^ 10) ∧ Rules.CodeIs (.brk i) 0x71 25 (i.toNat * 2 ^ 10 + 1)
    ∧ ∀ f, s.inMonitor = true → (s.raise f).here.monStop = true ∧ FreezeKind.emergency ∈ (s.raise f).here.requests
        ∧ (∀ q, (s.raise f).here.proc q = s.here.proc q) ∧ ∀ k, k ≠ s.cur.vt → (s.raise f).tile k = s.tile k

/-- A monitor word (R245). -/
def Rules.monitorWord : Instr → Prop
  | .eret _ | .slotrd _ _ | .slotwr _ _ _ | .slotctlThaw _ _ | .slotctlFreeze _ _ | .slotctlKill _ _ | .tlbinv _ | .idle
  | .mrds _ _ | .mwrs _ _ | .mwrsFqhd _ | .mwrsPtent _ | .mwrsHfq _ => True
  | _ => False

/-- An instruction of majors 0x50 to 0x6E (R92). -/
def Rules.processWord : Instr → Prop
  | .mclaim _ _ | .mfree _ | .mzero _ | .mld _ _ _ | .mst _ _ _ _ _ | .mma _ _ _ _ _ | .mwait _ | .mstat _ _ | .cpy _ _ _ _
  | .cpyt _ _ _ _ | .cpyr _ _ _ _ _ _ | .cpyxOut _ _ _ _ | .cpyxIn _ _ _ _ | .cwait _ | .cpoll _ _ | .cabort _
  | .send _ _ _ | .sendT _ _ _ | .recv _ _ _ | .recvT _ _ _ | .sendv _ _ _ | .recvv _ _ _ | .sendb _ _ _ _
  | .recvb _ _ _ _ | .select _ _ _ _ | .selectT _ _ _ _ | .probe _ _ | .chst _ _ | .chgive _ _ | .latarr _ _ | .latdrop _
  | .latwait _ _ | .spawn _ _ _ _ | .exit | .yield => True
  | _ => False

/-- **Privilege.** R92, R152, R245: a monitor word issued by a process raises PRIV with the word in aux; an engine, channel,
latch or process instruction issued by the monitor is a word that is no instruction there, and raises ILLEGAL. -/
def Rules.Privilege : Prop :=
  ∀ (s : State) (i : Instr) (w : BitVec 32), encode i = .some w →
    (Rules.monitorWord i → s.inMonitor = false →
      exec i s = .next (s.raise { code := 0x02, aux := w.setWidth 64 }))
    ∧ (Rules.processWord i → s.inMonitor = true →
      exec i s = .next (s.raise { code := 0x01, aux := w.setWidth 64 }))

/-- **Traps.** Software traps, words no instruction has, and privilege. -/
def Obligations.TrapsAndPrivilege : Prop := Rules.TrapsAndIllegalWords ∧ Rules.Privilege


/-- **Return from a fault.** R72, R246: eret of a PARKED slot that awaits no page makes it READY at the pc of its record, to
issue from the next tc on, or FROZEN with prior state READY under a whole-tile freeze; of a FROZEN slot with a fault it clears efp; of a READY, BLOCKED or
EMPTY slot it has no effect on any slot; and the monitor goes on. That the slot is READY at once, and held until the next tc,
is log entry 16. -/
def Obligations.ReturnFromFault : Prop :=
  ∀ (s : State) (a : Reg) (q : Nat), s.inMonitor = true → q = (s.x a).toNat % 8 → Completes (.eret a) s (fun t =>
    t.proc.pc = s.proc.pc + 4 ∧ (∀ j, j ≠ q → j ≠ s.cur.who → t.here.proc j = s.here.proc j)
    ∧ ((s.here.proc q).pc = (t.here.proc q).pc ∧ (t.here.proc q).g = (s.here.proc q).g
      ∧ (t.here.proc q).v = (s.here.proc q).v ∧ (t.here.proc q).fltc = (s.here.proc q).fltc)
    ∧ ((s.here.proc q).st = .parked → (s.here.proc q).pwait = none →
      (s.here.freeze = none → (t.here.proc q).st = .ready ∧ ∀ p, t.here.candidate p q = false)
      ∧ (s.here.freeze ≠ none → (t.here.proc q).st = .frozen ∧ (t.here.proc q).prior = .ready))
    ∧ ((s.here.proc q).st = .parked → (s.here.proc q).pwait ≠ none → t.here.proc q = s.here.proc q
      ∧ BitVec.ofNat 3 q ∈ t.here.releases)
    ∧ ((s.here.proc q).st = .frozen → (s.here.proc q).efp = true →
      (t.here.proc q).efp = false ∧ (t.here.proc q).st = .frozen)
    ∧ (((s.here.proc q).st = .ready ∨ (s.here.proc q).st = .blocked ∨ (s.here.proc q).st = .empty) →
      t.here.proc q = s.here.proc q))

/-- The codes of the states of a slot (R94). -/
def Rules.stateCode : SlotState → Nat
  | .empty => 0
  | .ready => 1
  | .blocked => 2
  | .parked => 3
  | .frozen => 4
  | .exited => 5

/-- The codes of the kinds of wait (R94). -/
def Rules.waitCode : WaitKind → Nat
  | .none => 0
  | .channel => 1
  | .select => 2
  | .latwait => 3
  | .mwait => 4
  | .cwait => 5
  | .fence => 6

/-- The 8 bytes of a slot area, by their offset, are those of its layout (R94). -/
def Rules.SlotLayout (p : Proc) (w : Nat → Word) : Prop :=
  (∀ (r : Reg) h, h < 2 → (w (16 * r.toNat + 8 * h)).toNat = (p.rg r).val.toNat / 2 ^ (64 * h) % 2 ^ 64)
  ∧ (∀ i, (w 0x200).getLsbD i = (decide (i < 32) && (p.rg (BitVec.ofNat 5 i)).tag))
  ∧ w 0x208 = p.pc.setWidth 64
  ∧ (w 0x210).toNat = Rules.stateCode p.st + Rules.stateCode p.prior * 8 + (if p.efp then 64 else 0)
  ∧ (w 0x218).toNat = p.lastEnd.toNat + p.claimed.toNat * 2 ^ 8 + p.nextCid.toNat * 2 ^ 16 + p.ageing.toNat * 2 ^ 32
  ∧ (w 0x220).toNat = p.btime.toNat + p.gen.toNat * 2 ^ 32
  ∧ (w 0x228).toNat = (match p.pwait with | some g => g.toNat + 2 ^ 63 | none => 0)
  ∧ w 0x230 = p.pnum ∧ w 0x238 = 0
  ∧ (∀ r : MReg, w (0x240 + 8 * r.toNat) = p.rm r)
  ∧ w 0x280 = p.fst.setWidth 64 ∧ w 0x288 = p.frm.setWidth 64 ∧ w 0x290 = p.amax ∧ w 0x298 = p.rngk ∧ w 0x2A0 = p.rngn
  ∧ w 0x2A8 = p.prio.setWidth 64 ∧ (w 0x2B0).toNat = p.dlthr.toNat + (if p.dlT then 2 ^ 32 else 0) ∧ w 0x2B8 = p.fltc
  ∧ w 0x2C0 = p.cpid.setWidth 64 ∧ (∀ i, i < 7 → w (0x2C8 + 8 * i) = 0)
  ∧ (∀ k, k < 4 → (∀ h, h < 2 → (w (0x300 + 32 * k + 8 * h)).toNat = (p.pump k).cap.val.toNat / 2 ^ (64 * h) % 2 ^ 64)
    ∧ w (0x310 + 32 * k) = (p.pump k).desc
    ∧ (w (0x318 + 32 * k)).toNat = (p.pump k).pos.toNat + (if (p.pump k).bound then 2 ^ 32 else 0)
        + (if (p.pump k).out then 2 ^ 33 else 0) + (if (p.pump k).cap.tag then 2 ^ 34 else 0))
  ∧ (∀ l, l < 256 → (w (0x380 + 8 * (l / 64))).getLsbD (l % 64) = p.memb.getLsbD l)
  ∧ (w 0x3A0).toNat = p.wait.word.toNat + Rules.waitCode p.wait.kind * 2 ^ 32 ∧ w 0x3A8 = p.wait.deadline
  ∧ w 0x3B0 = p.wait.endMask ∧ w 0x3B8 = p.wait.guardMask ∧ w 0x3C0 = p.wait.target ∧ (∀ i, i < 7 → w (0x3C8 + 8 * i) = 0)
  ∧ ∀ (r : Reg) h, h < 8 → (w (0x400 + 64 * r.toNat + 8 * h)).toNat = (p.rv r).toNat / 2 ^ (64 * h) % 2 ^ 64

/-- The bits of 8 bytes of the image that a write changes: those of the fields that are RW (R36, R52, R93, R94, R204,
R215). The tag and the value of g0 and the value of m0 are fixed. -/
def Rules.writable (off : Nat) : Word :=
  if off < 0x6000 then slot (off % 0xC00)
  else if off < 0xE000 then BitVec.allOnes 64
  else if off < 0xF000 then (if off % 16 = 0 then 0x07FFFFFFFFFFFFE7 else 0xFFFF)
  else if off < 0xF800 then BitVec.allOnes 64
  else if off < 0xFC00 then 0x01FFFFFF01FFFFFF
  else if off < 0xFD00 then (if off % 32 = 0 then 0x3FFFC else if off % 32 = 16 then 3 else BitVec.allOnes 64)
  else if off < 0xFF00 then (if off % 32 = 0 then 0xFFFFFFFFFFFFFFC0 else BitVec.allOnes 64)
  else if off = 0xFF00 then BitVec.allOnes 64
  else if off = 0xFF08 then 0xF
  else if off < 0xFF30 then 0x00001FFF00001FFF
  else if off = 0xFF30 then 0x3F
  else 0
where
  /-- The bits of a slot area. -/
  slot (o : Nat) : Word :=
    if o < 0x10 then 0
    else if o < 0x200 then BitVec.allOnes 64
    else if o = 0x200 then 0xFFFFFFFE
    else if o = 0x208 then 0x3FFFC
    else if o = 0x218 then 0x0000FFFFFFFFFFFF
    else if o = 0x230 then BitVec.allOnes 64
    else if o ≤ 0x240 then 0
    else if o < 0x280 then BitVec.allOnes 64
    else if o = 0x280 then 0x1F
    else if o = 0x288 then 3
    else if o = 0x290 then 0x800000007FFFFFFF
    else if o = 0x2A8 then 3
    else if o = 0x2B0 then 0x1FFFFFFFF
    else if o = 0x2C0 then 0xFFFF
    else if o < 0x2C8 then BitVec.allOnes 64
    else if o < 0x300 then 0
    else if o < 0x380 then (if o % 32 = 24 then 0x7FFFFFFFF else BitVec.allOnes 64)
    else if o < 0x3A0 then BitVec.allOnes 64
    else if o < 0x400 then 0
    else BitVec.allOnes 64

/-- The codes of a word written above the slot areas are ones that the image uses: the state of an end, the kind of a
copy, the count of the pool, the shapes of accumulators. -/
def Rules.codesUsed (off : Nat) (v : Word) : Prop :=
  (0xE000 ≤ off → off < 0xF000 → off % 16 = 0 → v.toNat % 8 ≠ 7)
  ∧ (0xFD00 ≤ off → off < 0xFF00 → off % 32 = 0 → v.toNat / 2 ^ 8 % 8 ≤ 5)
  ∧ (off = 0xFF08 → v.toNat % 16 ≤ 8)
  ∧ (0xFF10 ≤ off → off < 0xFF30 → v.toNat / 2 ^ 3 % 4 ≠ 3 ∧ v.toNat / 2 ^ 35 % 4 ≠ 3)

/-- An offset lies in the membership bits of a slot, which the bit of a latch record that tells of a member hosted on the
tile follows (R93, R94). -/
def Rules.membershipWord (off : Nat) : Prop := off < 0x6000 ∧ 0x380 ≤ off % 0xC00 ∧ off % 0xC00 < 0x3A0

/-- **Reading and writing the image.** R93 to R95, R247: slotrd writes 8 bytes of the image to gd, those of a slot area by its
layout; slotwr takes effect on a slot area while the slot is EMPTY, PARKED, FROZEN or EXITED, and above while the whole tile
is frozen: then the bits of RW fields of the 8 bytes hold the word, the rest of the image reads as before, and it returns 0;
else nothing of the image changes and it returns 1. -/
def Rules.ImageAccess : Prop :=
  ∀ (s : State) (d a b : Reg) (off : Nat), s.inMonitor = true → off = (s.x a).toNat % 65536 / 8 * 8 →
    Completes (.slotrd d a) s (fun t => Writes s t d (s.here.imageWord off))
    ∧ (∀ q, q < 8 → ∃ w, Rules.SlotLayout (s.here.proc q) w ∧ ∀ i, i < 0x180 → s.here.imageWord (0xC00 * q + 8 * i) = w (8 * i))
    ∧ ((off < 0x6000 → (s.here.proc (off / 0xC00)).st = .ready ∨ (s.here.proc (off / 0xC00)).st = .blocked) →
      (0x6000 ≤ off → s.here.freeze = none) →
      Completes (.slotwr d a b) s (fun t => t.proc = { s.proc.wg d (dataReg 1) with pc := s.proc.pc + 4 }
        ∧ { t.here.im with procs := s.here.im.procs } = s.here.im ∧ ∀ q, q ≠ s.cur.who → t.here.proc q = s.here.proc q))
    ∧ ((off < 0x6000 → (s.here.proc (off / 0xC00)).st ≠ .ready ∧ (s.here.proc (off / 0xC00)).st ≠ .blocked) →
      (0x6000 ≤ off → s.here.freeze ≠ none ∧ Rules.codesUsed off (s.x b)) →
      Completes (.slotwr d a b) s (fun t => t.proc = { s.proc.wg d (dataReg 0) with pc := s.proc.pc + 4 }
        ∧ t.here.imageWord off = (if Rules.writable off = 0 then s.here.imageWord off else s.x b &&& Rules.writable off)
        ∧ ∀ i, i < 8192 → 8 * i ≠ off → (8 * i < 0xF800 ∨ 0xFC00 ≤ 8 * i ∨ ¬Rules.membershipWord off) →
          t.here.imageWord (8 * i) = s.here.imageWord (8 * i)))

/-- What a freeze of a slot by slotctl leaves: FROZEN, with its state and its wait kept (R23, R96). -/
def Rules.frozenSlot (p : Proc) : Proc :=
  { p with st := .frozen, prior := p.st, bySlotctl := true, ageing := 0, aged := false }

/-- What the thaw of a slot that slotctl froze leaves, when nothing has come for it meanwhile: its prior state, or PARKED
when a fault is pending (R22, R96). -/
def Rules.thawedSlot (p : Proc) : Proc :=
  { p with
    st := if p.efp then .parked else p.prior, wait := if p.efp then {} else p.wait
    efp := false, bySlotctl := false, preempt := false, prior := .empty }

/-- **slotctl.** R22, R23, R96, R100, R248: a freeze of a READY or BLOCKED slot leaves it FROZEN with its wait kept, of an EMPTY, PARKED
or EXITED one has no effect, and of a FROZEN one none before the release of the whole-tile freeze that holds it (R100); a thaw of a slot that slotctl froze restores its state, and of any other has no effect; a kill of a PARKED
slot without outstanding work leaves it EMPTY, and of a READY or BLOCKED one has no effect; action 3 has none (its one word
stands for the three constructors, the model's choice: log entry 6). -/
def Rules.SlotControl : Prop :=
  ∀ (s : State) (a b : Reg) (i : Instr) (q : Nat), s.inMonitor = true →
    (i = .slotctlThaw a b ∨ i = .slotctlFreeze a b ∨ i = .slotctlKill a b) → q = (s.x a).toNat % 8 →
    ((s.x b).toNat % 4 = 1 → Completes i s (fun t => t.proc = Rules.onward s
      ∧ ((s.here.proc q).st = .ready ∨ (s.here.proc q).st = .blocked → t.here.proc q = Rules.frozenSlot (s.here.proc q))
      ∧ ((s.here.proc q).st = .empty ∨ (s.here.proc q).st = .parked ∨ (s.here.proc q).st = .exited →
        t.here.proc q = s.here.proc q)
      ∧ ((s.here.proc q).st = .frozen → t.here.proc q = { s.here.proc q with
        preempt := (s.here.proc q).preempt || (s.here.freeze.isSome && !(s.here.proc q).bySlotctl) })
      ∧ ∀ j, j < 8 → j ≠ q → t.here.proc j = s.here.proc j))
    ∧ ((s.x b).toNat % 4 = 0 →
      ((s.here.proc q).st ≠ .frozen ∨ (s.here.proc q).bySlotctl = false →
        Completes i s (fun t => t.proc = Rules.onward s ∧ ∀ j, j < 8 → t.here.proc j = s.here.proc j))
      ∧ ((s.here.proc q).st = .frozen → (s.here.proc q).bySlotctl = true → s.here.freeze = none →
        ((s.here.proc q).prior = .ready ∨ ((s.here.proc q).prior = .blocked ∧ (s.here.proc q).efp = false
          ∧ (s.here.proc q).wait.timed = false ∧ s.here.waitOver q = false
          ∧ ((s.here.proc q).wait.kind = .select → (s.here.proc q).wait.asking = none → (s.here.proc q).wait.deferred = []
            ∧ ∀ e, e ∈ s.here.usable q → (s.here.endAt e).oo = true ∧ s.askable s.cur.vt e = false))) →
        (∀ m, m ∈ s.msgs → m.dst.vt ≠ s.cur.vt) →
        Completes i s (fun t => t.proc = Rules.onward s ∧ t.here.proc q = Rules.thawedSlot (s.here.proc q))))
    ∧ ((s.x b).toNat % 4 = 2 →
      ((s.here.proc q).st = .parked → s.here.busy q = false → Completes i s (fun t => t.proc = Rules.onward s
        ∧ (t.here.proc q).st = .empty ∧ ∀ e, (s.here.endAt e).st ≠ .unbound → (s.here.endAt e).ownedBy q = true →
          (t.here.endAt e).ov = false))
      ∧ ((s.here.proc q).st = .ready ∨ (s.here.proc q).st = .blocked → Completes i s (fun t => t.proc = Rules.onward s
        ∧ ∀ j, j < 8 → t.here.proc j = s.here.proc j)))
    ∧ ((s.x b).toNat % 4 = 3 →
      Completes i s (fun t => t.proc = Rules.onward s ∧ ∀ j, j < 8 → t.here.proc j = s.here.proc j))

/-- **Looking at and changing slots.** R93 to R96, R247, R248: the image, and slotctl. That slotwr above the slot areas takes effect
under any accepted whole-tile freeze is log entry 49. -/
def Obligations.SlotAccess : Prop := Rules.ImageAccess ∧ Rules.SlotControl

/-- The monitor words as mrds gives them (R86, R132): fqtl, fqhd, the number of processes PARKED without a record, wdl,
ptwst, ptsel, the entry that ptsel names, and the bits of hfqst. -/
def Rules.monWord (v : VTile) : Nat → Nat
  | 0 => v.fqtl.toNat
  | 1 => v.fqhd.toNat
  | 2 => ((List.range 8).filter (fun q => v.fqwait.any (fun r => r.slot.toNat == q))).length
  | 3 => v.wdl.toNat
  | 4 => if v.ptwst then 1 else 0
  | 5 => v.ptsel.toNat
  | 6 => if v.ptsel.toNat < 15360 then (Sparse.get v.pt v.ptsel.toNat).toNat else 0
  | 8 => (if v.hfqFull then 1 else 0) + (if v.hfqBad then 2 else 0)
  | _ => 0

/-- The tile with a write of a monitor word in its log (R332). -/
def Rules.monLogged (s : State) (w : Nat) (v : Word) : VTile := (s.logOp s.cur.vt (.word w v)).here

/-- **Monitor words.** R86, R87, R92, R132, R249, R250: mrds writes its word, clearing what reading clears; mwrs writes its
word; fqhd moves the head only within the records held; ptent and hfq make the monitor wait, hfq with a bad address setting
its bit instead; tlbinv empties the cache of the page or of all and waits, an element that is being written under an entry
that goes being written whole first; idle waits unless there is work. What ptent
reads as while ptsel names no page is the model's choice: log entry 111. -/
def Obligations.MonitorWords : Prop :=
  ∀ (s : State) (d : Reg) (w : BitVec 5), s.inMonitor = true →
    Completes (.mrds d w) s (fun t => OnlyTile s t s.cur.vt
      ∧ t.proc = { s.proc.wg d (dataReg (BitVec.ofNat 64 (Rules.monWord s.here w.toNat))) with pc := s.proc.pc + 4 }
      ∧ { t.here with im := s.here.im } = { s.here with
          ptwst := s.here.ptwst && decide (w ≠ 4), hfqBad := s.here.hfqBad && decide (w ≠ 8) }
      ∧ { t.here.im with procs := s.here.im.procs } = s.here.im ∧ ∀ q, q ≠ s.cur.who → t.here.proc q = s.here.proc q)
    ∧ Completes (.mwrs d w) s (fun t => Becomes s t { Rules.monLogged s w.toNat (s.x d) with
        wdl := if w = 3 then s.x d else s.here.wdl
        ptsel := if w = 5 then (s.x d).setWidth 14 else s.here.ptsel } (Rules.onward s))
    ∧ Completes (.mwrsFqhd d) s (fun t => Becomes s t { Rules.monLogged s 1 (s.x d) with
        fqhd := if (s.here.fqtl - (s.x d).setWidth 5).toNat ≤ 16 then (s.x d).setWidth 5 else s.here.fqhd }
      (Rules.onward s))
    ∧ Completes (.mwrsPtent d) s (fun t =>
      Becomes s t { Rules.monLogged s 6 (s.x d) with monWait := .entry s.here.ptsel (s.x d) } (Rules.onward s))
    ∧ Completes (.mwrsHfq d) s (fun t => Becomes s t { Rules.monLogged s 7 (s.x d) with
        hfqBad := s.hfqBadAt s.cur.vt ((s.x d).toNat % 2 ^ 32)
        monWait := if s.hfqBadAt s.cur.vt ((s.x d).toNat % 2 ^ 32) then s.here.monWait
          else .hfq ((s.x d).toNat % 2 ^ 32) s.time } (Rules.onward s))
    ∧ Completes (.tlbinv d) s (fun t => (s.here.writing = false → OnlyTile s t s.cur.vt ∧ t.proc = Rules.onward s)
      ∧ t.proc.pc = s.proc.pc + 4 ∧ t.here.pt = s.here.pt
      ∧ t.here.monWait = .tlbinv (if (s.x d).getLsbD 63 then none else some (BitVec.ofNat 14 (s.x d).toNat))
      ∧ (∀ g, g < 2 ^ 14 → Sparse.get t.here.tlb g =
          if (s.x d).getLsbD 63 = true ∨ g = (s.x d).toNat % 2 ^ 14 then 0 else Sparse.get s.here.tlb g)
      ∧ ∀ g, g ∈ t.here.walks.take 4 → ((s.x d).getLsbD 63 = true ∨ g = (s.x d).toNat % 2 ^ 14) → g ∈ t.here.discard)
    ∧ Completes .idle s (fun t => Becomes s t { s.here with
        reqReg := s.here.reqReg && !s.here.monRunnable
        monWait := if s.here.monRunnable then s.here.monWait else .idle } (Rules.onward s))
    ∧ (s.here.monRunnable = true ↔ s.here.fqtl ≠ s.here.fqhd ∨ s.here.fqwait ≠ [] ∨ s.here.requests ≠ []
        ∨ s.here.reqReg = true)

/-! Events: messages. -/

/-- A message stands before its end, may arrive and is not held back (R43, R23). -/
abbrev Rules.taken (s : State) (m : Msg) : Prop := s.arrivable s.arg.n = some m ∧ s.holds m = false

/-- The end a message goes to. -/
def Rules.target (s : State) (m : Msg) : End := s.endAt m.dst.vt m.dst.idx

/-- The end is part of a network and not closed. -/
abbrev Rules.openEnd (x : End) : Prop := x.st ≠ .unbound ∧ x.st ≠ .closed ∧ x.st ≠ .broken

/-- An end that records an offer of its peer (R38). -/
def Rules.recorded (x : End) (psel : Bool) (plen : BitVec 11) : End := { x with po := true, psel := psel, plen := plen, st := .offered }

/-- An end with no offer of its peer recorded. -/
def Rules.unrecorded (x : End) : End := { x with po := false, psel := false, plen := 0 }

/-- An end of a match that is over, at rest in a state. -/
def Rules.atRest (x : End) (st : EndState) : End :=
  { x with
    st := st, hold := false, wgo := false, claiming := false, claimWait := false, tent := false, due := false, peerLen := 0
    inbuf := none, land := 0, moved := 0, wrote := [] }

/-- A message from an end to its peer on this panel, as it enters the fabric. -/
def Rules.reply (s : State) (k e : Nat) (m : MsgKind) : Msg :=
  { src := { vt := k, idx := e }
    dst := { vt := k / 65536 * 65536 + (s.endAt k e).pvt.toNat, idx := (s.endAt k e).pend.toNat }
    kind := m
    tile := s.standsAt k (k / 65536 * 65536 + (s.endAt k e).pvt.toNat) }

/-- An end can reach its peer: on this panel and not lost; and its own vtile is not in replay. -/
def Rules.peerStands (s : State) (k e : Nat) : Prop :=
  (s.endAt k e).xp = false ∧ (s.tile (k / 65536 * 65536 + (s.endAt k e).pvt.toNat)).lost = false ∧ k < 2 ^ 32
    ∧ (s.tile k).replay = none

/-- The fabric once a message is taken and its end has answered. -/
def Rules.answered (s : State) (m : Msg) (l : List MsgKind) : List Msg :=
  s.msgs.eraseIdx s.arg.n ++ l.map (Rules.reply s m.dst.vt m.dst.idx)

/-- A message that a router has routed onto a stream: the data of an end to its peer. -/
def Rules.streams (s : State) (k e : Nat) (m : Msg) : Prop :=
  m.isData = true ∧ m.src = { vt := k, idx := e } ∧ m.dst = (Rules.reply s k e .refusal).dst

/-- A message is a claim or, held, a confirmation request. -/
def Rules.asks (m : Msg) (i : Instr) (held wait : Bool) (plen : BitVec 11) : Prop :=
  (i = .claimArrives ∧ m.kind = .claim held wait plen)
    ∨ (i = .confirmationRequestArrives ∧ m.kind = .confirm wait ∧ held = true ∧ plen = 0)

/-- The end's own offer stands, and its operation is of a kind. -/
abbrev Rules.offering (s : State) (m : Msg) (kind : WaitKind) : Prop :=
  (Rules.target s m).oo = true ∧ (Rules.target s m).ov = true ∧ (Rules.target s m).st = .offered
    ∧ (s.waitOf m.dst.vt m.dst.idx).kind = kind

/-- The select of an end has completed OK on it: the end last chosen, its status, and every other guard offer withdrawn
(R48). -/
def Rules.selected (s t : State) (k e : Nat) : Prop :=
  (t.procAt k (s.ownerOf k e)).lastEnd = BitVec.ofNat 8 e
    ∧ ((s.waitOf k e).sReg ≠ 0 →
      (t.procAt k (s.ownerOf k e)).rg (s.waitOf k e).sReg = dataReg (Machine.statusWord stOk (some e) 0))
    ∧ ∀ g, g ∈ (s.waitOf k e).guards → g ≠ e → (t.endAt k g).oo = false

/-- **Offers, withdrawals, claims and requests arrive.** R6, R38, R46, R48, R49: an offer is recorded at an IDLE end, and at an end
that is neither IDLE nor has its own offer out it has no effect; a withdrawal clears the recorded offer; a claim of the standing offer of a plain operation is granted, and an
output whose claim is not held streams; a claim or request of the standing guard offer of a select that asks for no guard is
granted with held, and the select completes; a claim or request that meets no offer is refused and, with its wait bit,
recorded as an offer, the request and the held claim as one of a guard. -/
def Rules.OffersAndClaimsArrive : Prop :=
  ∀ (s : State) (m : Msg), Rules.taken s m →
    (∀ psel plen, m.kind = .offer psel plen →
      ((Rules.target s m).st = .idle ∨ ¬((Rules.target s m).st = .offered ∧ (Rules.target s m).oo = true)) →
      Completes .offerArrives s (fun t => Rules.target t m =
          (if (Rules.target s m).st = .idle then Rules.recorded (Rules.target s m) psel plen else Rules.target s m)
        ∧ OnlyTile { s with msgs := t.msgs } t m.dst.vt ∧ t.msgs = s.msgs.eraseIdx s.arg.n))
    ∧ (m.kind = .withdrawal → Completes .withdrawalArrives s (fun t =>
        Rules.target t m = { Rules.unrecorded (Rules.target s m) with
          st := if (Rules.target s m).st = .offered then
              (if (Rules.target s m).oo then .offered else .idle) else (Rules.target s m).st }
        ∧ OnlyTile { s with msgs := t.msgs } t m.dst.vt ∧ t.msgs = s.msgs.eraseIdx s.arg.n))
    ∧ (∀ i held wait plen, Rules.asks m i held wait plen → Rules.peerStands s m.dst.vt m.dst.idx →
      (Rules.offering s m .channel → s.past (s.waitOf m.dst.vt m.dst.idx) = false →
        ((Rules.target s m).input = true ∨ held = true →
          Completes i s (fun t => Rules.target t m = { Rules.unrecorded (Rules.target s m) with
              oo := false, st := .claimed, wgo := !(Rules.target s m).input && held, peerLen := 64 * plen.toNat
              sentSeq := (Rules.target s m).sentSeq + 1 }
            ∧ t.msgs = Rules.answered s m [.grant false]))
        ∧ ((Rules.target s m).input = false → held = false →
          Completes i s (fun t => Rules.target t m = { Rules.unrecorded (Rules.target s m) with
              oo := false, st := .transferring, wgo := false, peerLen := 64 * plen.toNat
              sentSeq := (Rules.target s m).sentSeq + 2 }
            ∧ ∃ d, Rules.streams s m.dst.vt m.dst.idx d ∧ t.msgs = Rules.answered s m [.grant false] ++ [d])))
      ∧ (Rules.offering s m .select → (s.waitOf m.dst.vt m.dst.idx).asking = none → s.past (s.waitOf m.dst.vt m.dst.idx) = false →
        (s.procAt m.dst.vt (s.ownerOf m.dst.vt m.dst.idx)).pendFault = [] →
        Completes i s (fun t => Rules.selected s t m.dst.vt m.dst.idx
          ∧ Rules.target t m = { Rules.unrecorded (Rules.target s m) with
              oo := false, st := .claimed, hold := true, wgo := !(Rules.target s m).input && held
              peerLen := 64 * plen.toNat, sentSeq := (Rules.target s m).sentSeq + 1 }
          ∧ ∃ l, t.msgs = Rules.answered s m [.grant true] ++ l))
      ∧ ((Rules.target s m).oo = false → ((Rules.target s m).st = .idle ∨ (Rules.target s m).st = .offered) →
        Completes i s (fun t => t.msgs = Rules.answered s m [.refusal]
          ∧ Rules.target t m = { if wait then Rules.recorded (Rules.target s m) held plen else Rules.target s m with
              sentSeq := (Rules.target s m).sentSeq + 1 })))

/-- **Answers to claims arrive.** R38, R46, R48: a grant of a plain claim of an input ends the claim, the end staying CLAIMED
until its data; of an output it opens the route, or with held awaits the go; a grant of a select's claim holds the end and
completes the select; a refusal turns the claim into the operation's own offer, or past the deadline ends the operation with
TIMEOUT, a withdrawal sent when the claim carried the wait bit; a go owed to a held output end is counted, and to an output
end not held opens the route. -/
def Rules.AnswersToClaimsArrive : Prop :=
  ∀ (s : State) (m : Msg), Rules.taken s m → Rules.peerStands s m.dst.vt m.dst.idx →
    (∀ held, m.kind = .grant held → (Rules.target s m).claiming = true → (Rules.target s m).st = .claimed →
      ((s.waitOf m.dst.vt m.dst.idx).kind = .channel →
        ((Rules.target s m).input = true → Completes .grantArrives s (fun t =>
          Rules.target t m = { Rules.unrecorded (Rules.target s m) with claiming := false, tent := false, oo := false }))
        ∧ ((Rules.target s m).input = false → held = true → Completes .grantArrives s (fun t =>
          Rules.target t m = { Rules.unrecorded (Rules.target s m) with
            claiming := false, tent := false, oo := false, wgo := true }))
        ∧ ((Rules.target s m).input = false → held = false → s.active m.dst.vt = true → Completes .grantArrives s (fun t =>
          Rules.target t m = { Rules.unrecorded (Rules.target s m) with
            claiming := false, tent := false, oo := false, wgo := false, st := .transferring
            sentSeq := (Rules.target s m).sentSeq + 1 }
          ∧ ∃ d, Rules.streams s m.dst.vt m.dst.idx d ∧ t.msgs = Rules.answered s m [] ++ [d])))
      ∧ ((s.waitOf m.dst.vt m.dst.idx).kind = .select → (s.waitOf m.dst.vt m.dst.idx).deferred = [] →
        (s.procAt m.dst.vt (s.ownerOf m.dst.vt m.dst.idx)).pendFault = [] → Completes .grantArrives s (fun t =>
          Rules.target t m = { Rules.unrecorded (Rules.target s m) with
            claiming := false, tent := false, oo := false, hold := true, wgo := !(Rules.target s m).input && held }
          ∧ Rules.selected s t m.dst.vt m.dst.idx)))
    ∧ (m.kind = .refusal → (Rules.target s m).claiming = true → (Rules.target s m).po = false →
      (s.procAt m.dst.vt (s.ownerOf m.dst.vt m.dst.idx)).pendFault = [] → (s.waitOf m.dst.vt m.dst.idx).kind = .channel →
      (s.waitOf m.dst.vt m.dst.idx).endIdx = m.dst.idx → (s.waitOf m.dst.vt m.dst.idx).deferred = [] →
      (s.waitOf m.dst.vt m.dst.idx).dropped = none →
      (s.past (s.waitOf m.dst.vt m.dst.idx) = false → Completes .refusalArrives s (fun t =>
        Rules.target t m = { Rules.target s m with claiming := false, tent := false, oo := true, st := .offered }))
      ∧ (s.past (s.waitOf m.dst.vt m.dst.idx) = true → (Rules.target s m).oo = false →
        (s.waitOf m.dst.vt m.dst.idx).sReg ≠ 0 → Completes .refusalArrives s (fun t =>
          (Rules.target t m).st = .idle ∧ (Rules.target t m).oo = false ∧ (Rules.target t m).claiming = false
          ∧ t.msgs = Rules.answered s m (if (Rules.target s m).claimWait then [.withdrawal] else [])
          ∧ (t.procAt m.dst.vt (s.ownerOf m.dst.vt m.dst.idx)).rg (s.waitOf m.dst.vt m.dst.idx).sReg
              = dataReg (Machine.statusWord stTimeout (some m.dst.idx) 0))))
    ∧ (∀ plen, m.kind = .go plen → (Rules.target s m).wgo = true →
      ((Rules.target s m).hold = true → Completes .goArrives s (fun t =>
          Rules.target t m = { Rules.target s m with wgo := false, peerLen := 64 * plen.toNat }))
      ∧ ((Rules.target s m).hold = false → Completes .goArrives s (fun t =>
          Rules.target t m = { Rules.target s m with
            wgo := false, peerLen := 64 * plen.toNat, st := .transferring, sentSeq := (Rules.target s m).sentSeq + 1 }
          ∧ ∃ d, Rules.streams s m.dst.vt m.dst.idx d ∧ t.msgs = Rules.answered s m [] ++ [d])))

/-- **Offers, claims and their answers.** R6, R38, R46, R48, R49: what each control message does at its end, and the message sent in
answer. That a claim, a grant and a withdrawal clear the offer recorded at the end is log entry 37, and that a claim and a go
carry the length of the block is log entry 97. -/
def Obligations.ClaimMessages : Prop := Rules.OffersAndClaimsArrive ∧ Rules.AnswersToClaimsArrive

/-- The process of an end goes on behind its transfer with a status. -/
def Rules.done (s t : State) (k e code moved : Nat) : Prop :=
  (t.procAt k (s.ownerOf k e)).st = .ready
    ∧ (t.procAt k (s.ownerOf k e)).pc = (s.procAt k (s.ownerOf k e)).pc + 4
    ∧ (t.procAt k (s.ownerOf k e)).rg (s.waitOf k e).sReg = dataReg (Machine.statusWord code (some e) moved)

/-- The process of an end is BLOCKED in a transfer on it that no rep holds, with a status register. -/
abbrev Rules.waits (s : State) (k e : Nat) : Prop :=
  (s.procAt k (s.ownerOf k e)).st = .blocked ∧ (s.procAt k (s.ownerOf k e)).pendFault = []
    ∧ (s.waitOf k e).kind = .channel ∧ (s.waitOf k e).endIdx = e ∧ (s.waitOf k e).rep = none ∧ (s.waitOf k e).sReg ≠ 0

/-- **Data arrives.** R38, R41: the first flit at a claimed input end that is not held opens its landing, where the operation
says, for the lesser of the two lengths; the last byte of a word or vector completes the receiver: its value, the sequence
number, the acknowledgement and the status OK; that of a block writes its bytes where they land, clears the tags there, and
acknowledges and returns their number; the acknowledgement completes the sender, a sendb with that number. The end is at rest,
IDLE when no offer stands at it. -/
def Obligations.DataArrives : Prop :=
  ∀ (s : State) (m : Msg),
    (Rules.taken s m → ∀ kind v addr len bytes, m.kind = .flits kind v addr len bytes →
      (Rules.target s m).st = .claimed → (Rules.target s m).input = true → (Rules.target s m).hold = false →
      (Rules.target s m).ov = true →
      Completes .firstFlitArrives s (fun t => Rules.target t m = { Rules.target s m with
          st := .transferring, inbuf := some m, land := (s.waitOf m.dst.vt m.dst.idx).addr
          moved := min len (s.waitOf m.dst.vt m.dst.idx).len }
        ∧ OnlyTile { s with msgs := t.msgs } t m.dst.vt ∧ t.msgs = s.msgs.eraseIdx s.arg.n))
    ∧ (∀ k e v kind, s.arg.k = k → s.arg.e = e → s.arg.c = 0 → s.replaying k = false → (s.endAt k e).inbuf = some m →
      s.wellWaits k (s.endAt k e).land = false → m.kind = .flits kind v 0 0 [] → (s.endAt k e).kind = kind →
      (s.endAt k e).ov = true → (s.endAt k e).oo = false → (s.endAt k e).po = false → (s.endAt k e).wrote = [] →
      Rules.waits s k e → Rules.peerStands s k e →
      (kind = 0 ∧ (s.waitOf k e).op = .recv ∨ kind = 1 ∧ (s.waitOf k e).op = .recvv) →
      Completes .lastByteWritten s (fun t => Rules.done s t k e stOk 0
        ∧ t.endAt k e = { Rules.atRest (s.endAt k e) .idle with
            seq := (s.endAt k e).seq + 1, sentSeq := (s.endAt k e).sentSeq + 1 }
        ∧ t.msgs = s.msgs ++ [Rules.reply s k e (.ack 0)]
        ∧ (kind = 0 → (s.waitOf k e).dReg ≠ 0 → (s.waitOf k e).dReg ≠ (s.waitOf k e).sReg →
          (t.procAt k (s.ownerOf k e)).rg (s.waitOf k e).dReg = dataReg (v.setWidth 64))
        ∧ (kind = 1 → (s.procAt k (s.ownerOf k e)).pops (s.waitOf k e).dReg = false →
          (s.procAt k (s.ownerOf k e)).appends (s.waitOf k e).dReg = false →
          (t.procAt k (s.ownerOf k e)).rv (s.waitOf k e).dReg = v)))
    ∧ (∀ k e v addr len bytes, s.arg.k = k → s.arg.e = e → s.arg.c = 0 → s.replaying k = false →
      (s.endAt k e).inbuf = some m → s.wellWaits k (s.endAt k e).land = false → m.kind = .flits 2 v addr len bytes →
      (s.endAt k e).kind = 2 → (s.endAt k e).ov = true → (s.endAt k e).oo = false → (s.endAt k e).po = false →
      (s.endAt k e).wrote = [] → Rules.waits s k e → (s.waitOf k e).op = .recvb → Rules.peerStands s k e →
      (s.endAt k e).moved ≤ bytes.length →
      Completes .lastByteWritten s (fun t => Rules.done s t k e stOk (s.endAt k e).moved
        ∧ t.endAt k e = { Rules.atRest (s.endAt k e) .idle with
            seq := (s.endAt k e).seq + 1, sentSeq := (s.endAt k e).sentSeq + 1 }
        ∧ t.msgs = s.msgs ++ [Rules.reply s k e (.ack (s.endAt k e).moved)]
        ∧ (∀ k' a, t.readByte k' a = (s.writeBytes k (s.endAt k e).land (bytes.take (s.endAt k e).moved)).readByte k' a)
        ∧ ((s.endAt k e).land + (s.endAt k e).moved ≤ wellLo → ∀ u, Sparse.get (t.tile k).im.tags u =
            (if (s.endAt k e).land ≤ u * 16 + 15 ∧ u * 16 < (s.endAt k e).land + (s.endAt k e).moved then false
              else Sparse.get (s.tile k).im.tags u))))
    ∧ (Rules.taken s m → ∀ moved, m.kind = .ack moved → (Rules.target s m).st = .transferring →
      (Rules.target s m).input = false → (Rules.target s m).oo = false → (Rules.target s m).po = false →
      Rules.waits s m.dst.vt m.dst.idx → (s.waitOf m.dst.vt m.dst.idx).op ≠ .recv → (s.waitOf m.dst.vt m.dst.idx).op ≠ .recvv →
      Completes .acknowledgementArrives s (fun t => Rules.done s t m.dst.vt m.dst.idx stOk moved
        ∧ Rules.target t m = { Rules.atRest (Rules.target s m) .idle with seq := (Rules.target s m).seq + 1 }))

/-- One side of a failed match: its end is IDLE, its process goes on with DROPPED. -/
def Rules.droppedAt (s t : State) (r : EndRef) : Prop :=
  t.endAt r.vt r.idx = { Rules.unrecorded (Rules.atRest (s.endAt r.vt r.idx) .idle) with oo := false }
    ∧ Rules.done s t r.vt r.idx stDropped 0

/-- One side of a match: on another panel, or an end here whose process is BLOCKED in a transfer on it. -/
def Rules.droppable (s : State) (r : EndRef) : Prop :=
  2 ^ 60 ≤ r.vt ∨ (Rules.openEnd (s.endAt r.vt r.idx) ∧ (s.endAt r.vt r.idx).ov = true ∧ Rules.waits s r.vt r.idx)

/-- An event by which the match of a message fails: it cannot be delivered, as it stands in the fabric or lands; or a missing link
cuts its route off. -/
def Rules.fails (s : State) (m : Msg) (i : Instr) : Prop :=
  (i = .deliveryFails ∧ s.arg.c = 0
      ∧ ((s.arg.ok = false ∧ s.msgs[s.arg.n]? = some m) ∨ (s.arg.ok = true ∧ (s.endAt s.arg.k s.arg.e).inbuf = some m)))
    ∨ (i = .virtualChannelFreed ∧ s.msgs[s.arg.n]? = some m ∧ s.cutOff m = true)

/-- The length of the block on its way to an end: that of the data that lands, or what the sender said. -/
def Rules.incoming (x : End) (len : Nat) : Prop :=
  (∃ d v a bytes, x.inbuf = some d ∧ d.kind = .flits 2 v a len bytes) ∨ (x.inbuf = none ∧ x.peerLen = len ∧ len ≠ 0)

/-- The bytes of a recvb's destination that a failed match zeroes: the lesser of the two lengths (R41, R45). -/
def Rules.zeroedAt (s t : State) (r : EndRef) : Prop :=
  (s.waitOf r.vt r.idx).op = .recvb → ∀ len, Rules.incoming (s.endAt r.vt r.idx) len → ∀ j,
    j < min len (s.waitOf r.vt r.idx).len → (s.waitOf r.vt r.idx).addr + min len (s.waitOf r.vt r.idx).len ≤ wellLo →
    t.readByte r.vt ((s.waitOf r.vt r.idx).addr + j) = 0

/-- **The end of a match.** R38, R45, R46, R301: a close notice closes its end, and an operation that waits on it completes with
PEER_GONE; at its deadline an operation whose offer stands completes with TIMEOUT, its offer withdrawn; a message that
cannot be delivered, or whose route a missing link cuts off, leaves both ends of its channel IDLE and completes their operations
with DROPPED, the bytes that a recvb was to receive being zero. That an end which its peer left keeps no offer is the model's
choice (log entry 95), and the number of those bytes is log entry 97. -/
def Obligations.MatchesEnd : Prop :=
  ∀ (s : State) (m : Msg) (k e q : Nat),
    (Rules.taken s m → m.kind = .close → Rules.openEnd (Rules.target s m) → (Rules.target s m).inbuf = none →
      (s.procAt m.dst.vt (s.ownerOf m.dst.vt m.dst.idx)).inSelect m.dst.idx = false →
      Completes .closeNoticeArrives s (fun t => (Rules.target t m).st = .closed ∧ (Rules.target t m).hold = false
        ∧ (Rules.target t m).wgo = false
        ∧ ((Rules.target s m).ov = true → (Rules.target s m).hold = false → Rules.waits s m.dst.vt m.dst.idx →
          Rules.done s t m.dst.vt m.dst.idx stPeerGone 0)))
    ∧ (s.arg.k = k → s.arg.q = q → s.replaying k = false → (s.procAt k q).st = .blocked →
      (s.procAt k q).wait.kind = .channel → (s.procAt k q).wait.endIdx = e → s.past (s.procAt k q).wait = true →
      (s.endAt k e).oo = true → (s.endAt k e).st = .offered → (s.endAt k e).claiming = false →
      (s.procAt k q).wait.rep = none → (s.procAt k q).wait.sReg ≠ 0 → (s.procAt k q).pendFault = [] →
      Rules.peerStands s k e →
      Completes .deadlinePasses s (fun t => (t.endAt k e).oo = false
        ∧ (t.endAt k e).st = (if (s.endAt k e).po then .offered else .idle)
        ∧ t.msgs = s.msgs ++ [Rules.reply s k e .withdrawal] ∧ (t.procAt k q).st = .ready
        ∧ (t.procAt k q).pc = (s.procAt k q).pc + 4
        ∧ (t.procAt k q).rg (s.procAt k q).wait.sReg = dataReg (Machine.statusWord stTimeout (some e) 0)))
    ∧ (∀ i, Rules.fails s m i → s.presenting = false → m.kind ≠ .close → m.dst.idx < 256 → s.replaying m.src.vt = false → s.replaying m.dst.vt = false → m.src.vt ≠ m.dst.vt →
      Rules.droppable s m.src → Rules.droppable s m.dst →
      Completes i s (fun t =>
        (m.src.vt < 2 ^ 60 → Rules.droppedAt s t m.src ∧ Rules.zeroedAt s t m.src)
        ∧ (m.dst.vt < 2 ^ 60 → Rules.droppedAt s t m.dst ∧ Rules.zeroedAt s t m.dst)))

/-- **Latch messages arrive.** R54, R271: at the home an arrival counts, and at the last one expected the phase advances, the
counts clear, the dropped members are expected no more and the phase is multicast, in ascending vtile order, to the tiles
that hosted a member in it; a drop counts so and shrinks the next phase; a leave of the
present phase only shrinks the next one, and one of the phase before counts as a drop; at a member's tile a phase sets lp and
clears arr. The tiles that a phase goes to are those of which the home has counted a member, the model's own record (log entry
21). -/
def Obligations.LatchMessagesArrive : Prop :=
  ∀ (s : State) (m : Msg) (k e : Nat) (h : LatchHome), Rules.taken s m → k = m.dst.vt → e = m.dst.idx - 256 →
    h = s.homeAt k e →
    (m.kind = .latArrive → h.e ≠ 0 → Completes .latchArrivalMsg s (fun t =>
      (h.c + 1 ≠ h.e → (t.homeAt k e).e = h.e ∧ (t.homeAt k e).c = h.c + 1 ∧ (t.homeAt k e).p = h.p
        ∧ (t.homeAt k e).d = h.d)
      ∧ (h.c + 1 = h.e → (t.homeAt k e).e = h.e - h.d ∧ (t.homeAt k e).c = 0 ∧ (t.homeAt k e).p = h.p + 1
        ∧ (t.homeAt k e).d = 0
        ∧ (256 ≤ m.dst.idx → (s.tile k).replay = none →
          (∀ j, j ∈ h.counted ∨ j = m.src.vt → j < 2 ^ 60 ∧ (s.tile j).lost = false) →
          ∃ l : List Nat, l.Pairwise (· ≤ ·) ∧ (∀ j, j ∈ l ↔ j ∈ h.counted ∨ j = m.src.vt)
            ∧ t.msgs = s.msgs.eraseIdx s.arg.n ++ l.map (fun j =>
              { src := m.dst, dst := { vt := j, idx := m.dst.idx }, kind := .latPhase (h.p + 1), tile := s.standsAt k j })))))
    ∧ (m.kind = .latDrop → h.e ≠ 0 → Completes .latchDropMsg s (fun t =>
      (h.c + 1 ≠ h.e → (t.homeAt k e).e = h.e ∧ (t.homeAt k e).c = h.c + 1 ∧ (t.homeAt k e).p = h.p
        ∧ (t.homeAt k e).d = h.d + 1)
      ∧ (h.c + 1 = h.e → (t.homeAt k e).e = h.e - (h.d + 1) ∧ (t.homeAt k e).c = 0 ∧ (t.homeAt k e).p = h.p + 1
        ∧ (t.homeAt k e).d = 0)))
    ∧ (m.kind = .latLeave (h.p - 1) → h.e ≠ 0 → Completes .latchLeaveMsg s (fun t =>
      (h.c + 1 ≠ h.e → (t.homeAt k e).e = h.e ∧ (t.homeAt k e).c = h.c + 1 ∧ (t.homeAt k e).p = h.p
        ∧ (t.homeAt k e).d = h.d + 1)
      ∧ (h.c + 1 = h.e → (t.homeAt k e).e = h.e - (h.d + 1) ∧ (t.homeAt k e).c = 0 ∧ (t.homeAt k e).p = h.p + 1
        ∧ (t.homeAt k e).d = 0)))
    ∧ (m.kind = .latLeave h.p → h.e ≠ 0 → Completes .latchLeaveMsg s (fun t =>
      (t.homeAt k e).e = h.e ∧ (t.homeAt k e).c = h.c ∧ (t.homeAt k e).p = h.p ∧ (t.homeAt k e).d = h.d + 1))
    ∧ (∀ p, m.kind = .latPhase p → Completes .phaseMulticastApplied s (fun t =>
      ((t.tile k).latch e).lp = p ∧ ((t.tile k).latch e).arr = 0))

/-- The state with the message that the event names replaced. -/
def Rules.nowIs (s : State) (m : Msg) : State := { s with msgs := s.msgs.set s.arg.n m }

/-- **Routers.** R43, R97, R267, R356: a header flit takes the links of the rest of its route while each has a free virtual channel,
and waits at one that has none, or while a tile of the two is frozen; the router of a tile that a vtile has left forwards to the new tile, and at hop count 4 or
with no record of the vtile returns the message to its source; a message returned is sent afresh in its place; a retry on a
link shows in its counter, which saturates. -/
def Obligations.Routers : Prop :=
  ∀ (s : State) (m : Msg), s.msgs[s.arg.n]? = some m →
    (m.parked = true → m.isData = true → isFar m.dst = false → s.cutOff m = false → s.frozenSide m = false → (Machine.Msg.isBlock m = true → s.blockBusy m = false) →
      (∀ l, l ∈ (s.msgRoute m).drop m.taken → s.linkFull l = false) → (s.msgRoute m).Nodup →
      Completes .virtualChannelFreed s (fun t => t = Rules.nowIs s
        { m with parked := false, taken := m.taken + ((s.msgRoute m).drop m.taken).length }))
    ∧ (∀ l r, m.parked = true → s.cutOff m = false →
      (((s.msgRoute m).drop m.taken = l :: r ∧ s.linkFull l = true) ∨ s.frozenSide m = true) →
      Completes .virtualChannelFreed s (fun t => t = s))
    ∧ (m.back = false → isFar m.dst = false → m.tile ≠ (s.tile m.dst.vt).ptile → s.mapping m.tile = false →
      (∀ p, (Sparse.get s.ptiles m.tile).stub = some p → Completes .stubForward s (fun t => t = Rules.nowIs s
        { m with tile := p, hop := m.hop + 1, back := decide (4 ≤ m.hop + 1) }))
      ∧ ((Sparse.get s.ptiles m.tile).stub = none → Completes .stubForward s (fun t => t = Rules.nowIs s
        { m with back := true })))
    ∧ (m.back = true → Completes .messageReturnedToSource s (fun t => t = Rules.nowIs s
        { m with tile := (s.tile m.dst.vt).ptile, hop := 0, back := false }))
    ∧ ∀ p, s.arg.p = p → Completes .linkLayerRetry s (fun t =>
        (Sparse.get t.ptiles p).retry = (if (Sparse.get s.ptiles p).retry = BitVec.allOnes 64
          then BitVec.allOnes 64 else (Sparse.get s.ptiles p).retry + 1)
        ∧ ∀ j, j ≠ p → Sparse.get t.ptiles j = Sparse.get s.ptiles j)

/-! Events: the deadbolt, translation, the monitor and the engines. -/

/-- Nothing but one process of one vtile differs. -/
def Rules.onlyProc (s t : State) (k q : Nat) (p : Proc) : Prop :=
  OnlyTile s t k ∧ t.procAt k q = p ∧ (∀ r, r ≠ q → t.procAt k r = s.procAt k r)
    ∧ { (t.tile k).im with procs := (s.tile k).im.procs } = (s.tile k).im
    ∧ { t.tile k with im := (s.tile k).im } = s.tile k

/-- The record of a deadlock reported to a process with T set (R60, R81, R85). -/
def Rules.deadlockRecord (s : State) (k q : Nat) : FaultRec :=
  { code := 0x40, slot := BitVec.ofNat 3 q, src := 4, pc := (s.procAt k q).pc.setWidth 32, time := s.time
    aux := (s.procAt k q).gen.setWidth 64 }

/-- A process reported: with T set PARKED at its instruction with a record of DEADLOCK, else gone on behind it (R60). -/
def Rules.reported (s t : State) (k q : Nat) : Prop :=
  (t.procAt k q).probe = none ∧ (t.procAt k q).wait = {}
    ∧ ((s.procAt k q).dlT = true → (t.procAt k q).st = .parked ∧ (t.procAt k q).pc = (s.procAt k q).pc
      ∧ ((s.tile k).replay = none → (s.tile k).held < 16 → (s.tile k).fqwait = [] →
        (t.tile k).fqtl = (s.tile k).fqtl + 1
        ∧ Memory.read (t.tile k).im.store (monLo + 32 * ((s.tile k).fqtl.toNat % 16)) 32
            = (Rules.deadlockRecord s k q).bytes (s.tile k).recNum))
    ∧ ((s.procAt k q).dlT = false → (t.procAt k q).st = .ready ∧ (t.procAt k q).pc = (s.procAt k q).pc + 4
      ∧ ((s.procAt k q).wait.kind ≠ .latwait → (s.procAt k q).wait.sReg ≠ 0 →
        (t.procAt k q).rg (s.procAt k q).wait.sReg = dataReg (Machine.statusWord 2 none 0)))

/-- **The deadbolt.** R57 to R60: a process BLOCKED for max(1024, thr) tc starts a probe; a visit that finds a wait edge live
ends it; one of the first wave that finds none live finds the process, with its generation, and has those along its edges
visited too, each once; after the last of them the second wave visits those found; a visit of it that finds the generation
unchanged goes on; a report parks a process with T set with the fault DEADLOCK, its generation in aux, completes one without,
a transfer or select with the status DEADLOCK, withdraws the offers of both (of one with T set by the model's choice: log
entry 34), and passes over one whose generation has changed. -/
def Obligations.DeadboltProbes : Prop :=
  ∀ (s : State) (k q : Nat), s.arg.k = k → s.arg.q = q →
    ((s.procAt k q).st = .blocked → (s.procAt k q).dlthr ≠ 0 → (s.procAt k q).probe = none →
      max 1024 (s.procAt k q).dlthr.toNat ≤ (s.procAt k q).btime.toNat → s.still k = false →
      Completes .deadboltProbeStart s (fun t =>
        Rules.onlyProc s t k q { s.procAt k q with probe := some { visit := [(k, q)] } }))
    ∧ (∀ b j r l, (s.procAt k q).probe = some b → b.visit = (j, r) :: l →
      (s.edges j r = none → Completes .deadboltProbeMessage s (fun t =>
        Rules.onlyProc s t k q { s.procAt k q with probe := none, btime := 0 }))
      ∧ ((s.edges j r).isSome = true → b.second = true → b.genOf j r = some (s.procAt j r).gen →
        Completes .deadboltProbeMessage s (fun t =>
          Rules.onlyProc s t k q { s.procAt k q with probe := some { b with visit := l } }))
      ∧ (∀ es, s.edges j r = some es → b.second = false → Completes .deadboltProbeMessage s (fun t => ∃ d,
          Rules.onlyProc s t k q { s.procAt k q with probe := some d } ∧ d.second = false
          ∧ d.found = (if (b.genOf j r).isSome then b.found else b.found ++ [(j, r, (s.procAt j r).gen)])
          ∧ ∀ x, x ∈ d.visit ↔ x ∈ l ∨ (x ∈ es ∧ d.genOf x.1 x.2 = none))))
    ∧ (∀ b, (s.procAt k q).probe = some b → b.visit = [] → b.second = false →
      Completes .deadboltProbeMessage s (fun t => Rules.onlyProc s t k q
        { s.procAt k q with probe := some { b with second := true, visit := b.found.map (fun f => (f.1, f.2.1)) } }))
    ∧ (∀ b g, s.presenting = false → (s.procAt k q).probe = some b → b.second = true → b.visit = [] →
      b.found = [(k, q, g)] →
      ((s.procAt k q).gen ≠ g → Completes .deadboltReport s (fun t =>
        Rules.onlyProc s t k q { s.procAt k q with probe := none }))
      ∧ ((s.procAt k q).st = .blocked → (s.procAt k q).gen = g → (s.procAt k q).wait.rep = none →
        (s.procAt k q).pendFault = [] →
        ((s.procAt k q).wait.kind = .latwait ∨ (s.procAt k q).wait.kind = .channel ∨ (s.procAt k q).wait.kind = .select) →
        Completes .deadboltReport s (fun t => Rules.reported s t k q
          ∧ ((s.procAt k q).wait.kind = .channel → (t.endAt k (s.procAt k q).wait.endIdx).oo = false)
          ∧ ((s.procAt k q).wait.kind = .select → ∀ e, e ∈ (s.procAt k q).wait.guards → (t.endAt k e).oo = false))))

/-- An 8-byte register after a write of 8 bytes, or of 4 to its lower or upper half (R304). -/
def Rules.written (old : Word) (four : Bool) (hi : Nat) (v : Word) : Word :=
  if four then (if hi = 0 then (old &&& 0xFFFFFFFF00000000) ||| (v &&& 0xFFFFFFFF) else (old &&& 0xFFFFFFFF) ||| (v <<< 32))
  else v

/-- The new entry takes a right or the page away that the old one gave, or changes its frame or its kind, so that a tlbinv is due
(R313). -/
def Rules.takes (old new : Word) : Prop :=
  entryM old = true ∧ (entryM new = false ∨ (entryR old = true ∧ entryR new = false)
    ∨ (entryW old = true ∧ entryW new = false) ∨ entryStk old ≠ entryStk new ∨ entryFrame old ≠ entryFrame new)

/-- **Translation.** R68, R70, R72, R92, R249, R304, R313: a walk that returns caches a mapped entry; the die applies an entry
that the monitor submitted or refuses it with ptwst, as one of a page from 15,360 on by the model's choice (log entry 111); a
tlbinv completes once no walk that it awaits is in flight, with no translation of its pages cached, and a window busy for one
of them is so no more; a write of the translation window over the host link, of 8 or 4 bytes, the half it does not cover kept
(log entry 100), changes the entry, and makes the window busy when it takes something away that may be cached; it is refused,
or waits while the window is busy. -/
def Obligations.TranslationEvents : Prop :=
  ∀ (s : State) (k : Nat),
    (s.arg.k = k → s.arg.ok = false → ((s.tile k).walks.take 4).contains s.arg.j = true → s.replaying k = false →
      s.presenting = false → Completes .translationWalkComplete s (fun t =>
        (t.tile k).walks.contains s.arg.j = false
        ∧ ((s.tile k).discard.contains s.arg.j = false → (s.tile k).tlb.length < 256 →
          entryM (Sparse.get (s.tile k).pt s.arg.j) = true → entryR (Sparse.get (s.tile k).pt s.arg.j) = true →
          Sparse.get (t.tile k).tlb s.arg.j = Sparse.get (s.tile k).pt s.arg.j)
        ∧ ((s.tile k).discard.contains s.arg.j = true → (t.tile k).tlb = (s.tile k).tlb)))
    ∧ (∀ page v, s.arg.k = k → (s.tile k).monWait = .entry page v →
      (page.toNat < 15360 → s.refusesEntry k v = false → Completes .translationEntryApplied s (fun t =>
        (t.tile k).monWait = .none ∧ Sparse.get (t.tile k).pt page.toNat = v
        ∧ ∀ g, g ≠ page.toNat → Sparse.get (t.tile k).pt g = Sparse.get (s.tile k).pt g))
      ∧ ((15360 ≤ page.toNat ∨ s.refusesEntry k v = true) → Completes .translationEntryApplied s (fun t =>
        (t.tile k).monWait = .none ∧ (t.tile k).ptwst = true ∧ (t.tile k).pt = (s.tile k).pt ∧ OnlyTile s t k)))
    ∧ (∀ page, s.arg.k = k → (s.tile k).monWait = .tlbinv page → (s.tile k).walksBack page = true →
      Completes .tlbinvComplete s (fun t => (t.tile k).monWait = .none
        ∧ (∀ g, g < 2 ^ 14 → (page = none ∨ page = some (BitVec.ofNat 14 g)) → Sparse.get (t.tile k).tlb g = 0)
        ∧ (∀ g, g < 2 ^ 14 → s.ten.twbusy = some (k, g) → s.ten.twwaiting = [] →
          (page = none ∨ page = some (BitVec.ofNat 14 g)) → t.ten.twbusy = none)))
    ∧ (∀ v, s.windowVTile = some k → s.arg.j < 15360 → s.up.reset = false → s.up.d3 = false → s.up.hostLink = true →
      s.up.phase ≠ 1 → v = Rules.written (Sparse.get (s.tile k).pt s.arg.j) s.arg.ok s.arg.e s.arg.v →
      (s.ten.twbusy = none → s.refusesEntry k v = false → Completes .translationWindowWrite s (fun t =>
        Sparse.get (t.tile k).pt s.arg.j = v
        ∧ (∀ g, g ≠ s.arg.j → Sparse.get (t.tile k).pt g = Sparse.get (s.tile k).pt g)
        ∧ (Rules.takes (Sparse.get (s.tile k).pt s.arg.j) v → t.ten.twbusy = some (k, s.arg.j))
        ∧ (¬Rules.takes (Sparse.get (s.tile k).pt s.arg.j) v → t.ten.twbusy = none)))
      ∧ (s.ten.twbusy = none → s.refusesEntry k v = true → Completes .translationWindowWrite s (fun t =>
        t = { s with ten := { s.ten with twrefused := true, twpage := BitVec.ofNat 16 s.arg.j } }))
      ∧ (s.ten.twbusy.isSome = true → Completes .translationWindowWrite s (fun t =>
        t = { s with ten := { s.ten with twwaiting := s.ten.twwaiting ++ [
          { vt := k, page := s.arg.j, four := s.arg.ok, hi := s.arg.e, value := s.arg.v }] } })))

/-- **One per tc, and the monitor's waits.** R72, R87, R89, R91, R250: one waiter of the resolved pages goes READY; the oldest
record that waits is written when the queue has room; an idle monitor with a reason to run issues again, one that the event
itself may bring (log entry 29); a monitor that has left the oldest record held for 10 ms stops as an emergency, and the
driver is told by vector 2 (the model's choice of the report: log entry 39). -/
def Rules.MonitorEvents : Prop :=
  ∀ (s : State) (k : Nat), s.arg.k = k →
    (∀ q r, (s.tile k).releases = q :: r → (s.procAt k q.toNat).st = .parked →
      (s.procAt k q.toNat).pwait.isSome = true → (s.tile k).freeze = none →
      Completes .pageWaiterRelease s (fun t => OnlyTile s t k ∧ (t.tile k).releases = r
        ∧ (t.procAt k q.toNat).st = .ready ∧ (t.procAt k q.toNat).pwait = none
        ∧ (t.procAt k q.toNat).pc = (s.procAt k q.toNat).pc))
    ∧ (∀ r l, (s.tile k).fqwait = r :: l → (s.tile k).held < 16 →
      Completes .deferredFaultRecordWrite s (fun t => OnlyTile s t k ∧ (t.tile k).fqwait = l
        ∧ (t.tile k).fqtl = (s.tile k).fqtl + 1 ∧ (t.tile k).recNum = (s.tile k).recNum + 1
        ∧ Memory.read (t.tile k).im.store (monLo + 32 * ((s.tile k).fqtl.toNat % 16)) 32 = r.bytes (s.tile k).recNum))
    ∧ (s.active k = true → (s.tile k).monWait = .idle → ((s.tile k).monRunnable = true ∨ (s.arg.ok = true ∧ s.up.reset = false ∧ s.up.hostLink = true)) →
      Completes .monitorWake s (fun t => t = s.setTile k { s.tile k with monWait := .none, reqReg := false }))
    ∧ (∀ r, (s.tile k).held ≠ 0 → (s.tile k).recTimes[(s.tile k).recTimes.length - (s.tile k).held]? = some r →
      (s.tile k).hfqFull = false → (s.tile k).emergency = false →
      10000000 ≤ s.time.toNat - r.toNat →
      Completes .monitorTimeout s (fun t => t = { s.setTile k { s.tile k with
          monStop := true, emergency := true, requests := (s.tile k).requests ++ [.emergency] } with
        msix := s.msix ++ [(0, 2)] }))

/-- **The host fault ring and the driver's answers.** R89, R92, R101, R308: an entry is appended to the ring of its tenant and
its vector raised, at every append (log entry 28), or with the ring full the monitor waits and full is set; an answer, a write
over the host link, is taken from the records that await one, kept for a vtile that is absent; of a resident one, alone and
for a PARKED process, RESUME goes on at the pc of the record and NEXT after it, in the step of the event (log entry 38). -/
def Rules.HostFaults : Prop :=
  ∀ (s : State) (k : Nat),
    (∀ addr since slot, s.arg.k = k → (s.tile k).monWait = .hfq addr since →
      (Sparse.get s.parts (s.tile k).part).slotOf ((s.tile k).hfqTenant addr) = some slot → s.up.hostLink = true →
      ((((Sparse.get s.queues (s.tile k).part).ring slot).2.2.1
          - ((Sparse.get s.queues (s.tile k).part).ring slot).2.2.2).toNat
          < 2 ^ ((Sparse.get s.queues (s.tile k).part).ring slot).2.1 →
        Completes .hfqAppendComplete s (fun t => (t.tile k).monWait = .none
          ∧ ((Sparse.get t.queues (s.tile k).part).ring slot).2.2.1
              = ((Sparse.get s.queues (s.tile k).part).ring slot).2.2.1 + 1
          ∧ t.msix = s.msix ++ [if (s.tile k).hfqTenant addr = 0 then (0, 1) else ((s.tile k).hfqTenant addr, 0)]
          ∧ Memory.read t.hostMem ((s.tile k).hfqTenant addr * 2 ^ 64
              + ((Sparse.get s.queues (s.tile k).part).ring slot).1
              + 64 * (((Sparse.get s.queues (s.tile k).part).ring slot).2.2.1.toNat
                % 2 ^ ((Sparse.get s.queues (s.tile k).part).ring slot).2.1)) 64
            = Memory.read (s.tile k).im.store addr 64))
      ∧ (2 ^ ((Sparse.get s.queues (s.tile k).part).ring slot).2.1
          ≤ (((Sparse.get s.queues (s.tile k).part).ring slot).2.2.1
            - ((Sparse.get s.queues (s.tile k).part).ring slot).2.2.2).toNat → (s.tile k).hfqFull = false →
        Completes .hfqAppendComplete s (fun t => (t.tile k).hfqFull = true
          ∧ (if slot = 0 then (Sparse.get t.queues (s.tile k).part).full0
              else (Sparse.get t.queues (s.tile k).part).full1) = true
          ∧ t.hostMem = s.hostMem)))
    ∧ (∀ f, k = vtKey s.arg.q s.arg.t.toNat s.arg.vt.toNat →
      (s.tile k).forwarded.find? (fun f => decide (f.1 = s.arg.seq)) = some f →
      s.up.reset = false → s.up.hostLink = true →
      (s.active k = false → ∀ i a, (i, a) ∈ [(Instr.fansResume, (0 : BitVec 2)), (.fansNext, 1), (.fansKill, 2)] →
        Completes i s (fun t => t = s.setTile k { s.tile k with
          forwarded := (s.tile k).forwarded.erase f, answers := (s.tile k).answers ++ [(a, f.2)] }))
      ∧ (s.active k = true → (s.tile k).replay = none → (s.tile k).answers = [] → (s.tile k).forwarded = [f] →
        (s.tile k).freeze = none → (s.procAt k f.2.slot.toNat).st = .parked →
        (s.procAt k f.2.slot.toNat).pwait = none →
        Completes .fansResume s (fun t => (t.procAt k f.2.slot.toNat).st = .ready
          ∧ (t.procAt k f.2.slot.toNat).pc = (s.procAt k f.2.slot.toNat).pc)
        ∧ (f.2.src = 0 → Completes .fansNext s (fun t => (t.procAt k f.2.slot.toNat).st = .ready
          ∧ (t.procAt k f.2.slot.toNat).pc = (s.procAt k f.2.slot.toNat).pc + 4))))

/-- **The monitor's events.** Releases, deferred records, wakes and the timeout, the host fault ring and the answers; the
vector of every append, the answer's own step, the event's own wake and the report of a timeout are readings or choices of the
model (log entries 28, 38, 29, 39). -/
def Obligations.MonitorAndHostFaults : Prop := Rules.MonitorEvents ∧ Rules.HostFaults

/-! What a matrix command does, in the terms of R203 to R213. -/

/-- A row of an accumulator: 128 of its 4096 bytes (R209, R212). -/
def Rules.accRow (t : VTile) (c : BitVec 3) (i : Nat) : List Byte := Memory.read t.im.accMem (4096 * c.toNat + 128 * i) 128

/-- An element of an accumulator, of 4 bytes, or of 8 in the f64 shape. -/
def Rules.accElem (t : VTile) (c : BitVec 3) (h : AccShape) (i j : Nat) : Nat :=
  let w := if h = .f64 then 8 else 4
  ofBytes (((Rules.accRow t c i).drop (w * j)).take w)

/-- Rows and columns of a shape (R209). -/
def Rules.dim (h : AccShape) : Nat := if h = .f64 then 16 else 32

/-- The address of byte b of row q of an operand with its cursor, pitch and rotation code (R210). -/
def Rules.rowByte (c pitch rot q b : Nat) : Nat :=
  c + q * pitch + (if rot = 0 then b else 16 * ((b / 16 + rot * q) % 32) + b % 16)

/-- Element i of row q of an operand, of w bits: two E2M1 elements lie in a byte, the lower index in [3:0] (R209). -/
def Rules.inRow (t : VTile) (c pitch rot w q i : Nat) : Nat :=
  let byte (b : Nat) : Nat := (Sparse.get t.im.store (Rules.rowByte c pitch rot q b)).toNat
  if w = 4 then byte (i / 2) / 16 ^ (i % 2) % 16
  else ((List.range (w / 8)).map (fun n => byte (i * (w / 8) + n) * 256 ^ n)).sum

/-- Element k of row i of A: or element i of its row k, when ta is set (R208, R211). -/
def Rules.elemA (t : VTile) (m : MmaType) (pa : Nat) (x : Word) (i k : Nat) : Nat :=
  Rules.inRow t pa (x.toNat % 65536) (x.toNat / 2 ^ 32 % 16) (laneBits m.a) (if x.getLsbD 40 then k else i)
    (if x.getLsbD 40 then i else k)

/-- Element j of row k of B: or element k of its row j, when tb is set. -/
def Rules.elemB (t : VTile) (m : MmaType) (pb : Nat) (x : Word) (k j : Nat) : Nat :=
  Rules.inRow t pb (x.toNat / 65536 % 65536) (x.toNat / 2 ^ 36 % 16) (laneBits m.b) (if x.getLsbD 41 then j else k)
    (if x.getLsbD 41 then k else j)

/-- A byte of the scale array, which stands behind the rows of its operand (R210). -/
def Rules.scaleByte (t : VTile) (c pitch rows n : Nat) : Nat := (Sparse.get t.im.store (c + rows * pitch + n)).toNat

/-- The exact product of an element of A and one of B, each with the scale of its block in an MX type (R122, R123). -/
def Rules.product (t : VTile) (m : MmaType) (pa pb : Nat) (x : Word) (i j k : Nat) : FVal :=
  let a := (fmtOf m.a).unpack (Rules.elemA t m pa x i k)
  let b := (fmtOf m.b).unpack (Rules.elemB t m pb x k j)
  let sa := Rules.scaleByte t pa (x.toNat % 65536) (if x.getLsbD 40 then m.k else 32) (i * (m.k / 32) + k / 32)
  let sb := Rules.scaleByte t pb (x.toNat / 65536 % 65536) (if x.getLsbD 41 then 32 else m.k) (k / 32 * 32 + j)
  let scaled (v : FVal) (s : Nat) : FVal := if s = 0xFF then .nan false else v.scaleBy ((s : Int) - 127)
  if m.mx then (scaled a sa).mul (scaled b sb) else a.mul b

/-- An element of a float mma with the flags it raises: for each group of K in ascending order the accumulator and the products
of the group are summed and rounded once; a NaN that the accumulator holds raises none (R122, R211). -/
def Rules.grouped (f : Fmt) (group groups : Nat) (product : Nat → FVal) (acc : Nat) : FRes :=
  (List.range groups).foldl (fun r n =>
    let held := if (f.unpack r.1).isNan then .nan false else f.unpack r.1
    let z := f.deliver .rne (fsum .rne (held :: (List.range group).map (fun k => product (n * group + k))))
    (z.1, r.2 ||| z.2)) (acc, 0)

/-- The value of an element of an accumulator. -/
def Rules.accValue (t : VTile) (c : BitVec 3) (h : AccShape) (i j : Nat) : FVal :=
  match h with
  | .f32 => fmtF32.unpack (Rules.accElem t c h i j)
  | .s32 => intVal (BitVec.ofNat 32 (Rules.accElem t c h i j)).toInt
  | .f64 => fmtF64.unpack (Rules.accElem t c h i j)

/-- A block of exact values as R124 quantises it: NV, elements and a scale of all zeros with a NaN or an infinity among them;
else the scale of the greatest magnitude, and every value over it rounded. -/
def Rules.quantised (f : Fmt) (emax : Int) (vals : List FVal) (els : List FRes) (scale : Nat) : Prop :=
  let wild := vals.any (fun v => v.isNan || v.isInf false || v.isInf true)
  (wild = true → els = vals.map (fun _ => (0, flagNV)) ∧ scale = 0xFF)
  ∧ (wild = false → (∀ v ∈ vals, ∃ n e, v = .fin n 0 e) → (∀ e ∈ els, e = (0, 0)) ∧ els.length = vals.length ∧ scale = 0x7F)
  ∧ (wild = false → ∀ n m e, m ≠ 0 → .fin n m e ∈ vals →
      (∀ n' m' e', m' ≠ 0 → .fin n' m' e' ∈ vals → leadOf m' e' ≤ leadOf m e) →
      els = vals.map (fun v => f.deliver .rne (v.scaleBy (-(max (-127) (min 127 (leadOf m e - emax))))))
      ∧ (scale : Int) = max (-127) (min 127 (leadOf m e - emax)) + 127)

/-- A row as an mst writes it: raw elements unchanged; an MX block; or each exact value, times the scale of a scaled type,
rounded once (R213). -/
def Rules.outRow (t : VTile) (c : BitVec 3) (h : AccShape) (ty : BitVec 5) (gx : BitVec 32) (i : Nat) (els : List FRes)
    (scale : Nat) : Prop :=
  let vals := (List.range (Rules.dim h)).map (fun j =>
    if ty.toNat = 10 ∨ ty.toNat = 2 ∨ ty.toNat = 11 then Rules.accValue t c h i j
    else (Rules.accValue t c h i j).mul (fmtF32.unpack gx.toNat))
  ((h = .f32 ∧ ty.toNat = 10) ∨ (h = .s32 ∧ ty.toNat = 2) ∨ (h = .f64 ∧ ty.toNat = 11) →
    els = (List.range (Rules.dim h)).map (fun j => (Rules.accElem t c h i j, 0)))
  ∧ ((h = .s32 ∧ ty.toNat = 10) ∨ (h = .f64 ∧ ty.toNat = 10) → els = vals.map (fmtF32.deliver .rne))
  ∧ (∀ f, (ty.toNat, f) ∈ [(8, fmtF16), (9, fmtBf16), (12, fmtE4m3), (13, fmtE5m2)] → els = vals.map (f.deliver .rne))
  ∧ (∀ f e, (ty.toNat, f, e) ∈ [(16, fmtE4m3, (8 : Int)), (17, fmtE5m2, 15), (18, fmtE2m1, 2)] →
      Rules.quantised f e vals els scale)

/-- **Matrix commands.** R122 to R124, R203 to R206, R209 to R213: at its completion the oldest command takes its effect and
leaves the queue. A zeroing one leaves the accumulator and its flags 0, dirty after mzero and not after mclaim; an mld copies
the rows; an mma adds to every element its products, modulo 2^32 for s32, rounded once a group for f32 and f64, with their
flags; an mst writes its rows, and the scale bytes of an MX type behind them, clears the tags of the units written, and leaves
the accumulator clean; no other byte below the monitor area and no other tag differs. -/
def Rules.MatrixEffects : Prop :=
  ∀ (s : State) (k : Nat) (e : MatCmd) (r : List MatCmd) (c : BitVec 3) (h : AccShape), s.arg.k = k →
    s.engineRuns k = true → s.arg.c = 0 → (s.tile k).im.mats = e :: r → e.early = [] → e.wrote = [] → c = e.acc →
    h = e.shape →
    (e.op = .zero ∨ e.op = .claimZero → Completes .matrixCommandComplete s (fun t => (t.tile k).im.mats = r
      ∧ (∀ i, i < 32 → Rules.accRow (t.tile k) c i = List.replicate 128 0) ∧ ((t.tile k).acc c).flags = 0
      ∧ (((t.tile k).acc c).dirty = true ↔ e.op = .zero)))
    ∧ (∀ base pitch, e.op = .load base pitch → Completes .matrixCommandComplete s (fun t => (t.tile k).im.mats = r
      ∧ (∀ i, i < Rules.dim h → Rules.accRow (t.tile k) c i = Memory.read (s.tile k).im.store (base + i * pitch) 128)
      ∧ ((t.tile k).acc c).dirty = true ∧ ((t.tile k).acc c).flags = 0))
    ∧ (∀ pa pb x ty m, e.op = .mma pa pb x ty → m = mmaType ty → m.shape = h →
      Completes .matrixCommandComplete s (fun t => (t.tile k).im.mats = r ∧ ((t.tile k).acc c).dirty = true
        ∧ (h = .s32 → ((t.tile k).acc c).flags = ((s.tile k).acc c).flags ∧ ∀ i j, i < 32 → j < 32 →
          (Rules.accElem (t.tile k) c h i j : Int) = (Rules.accElem (s.tile k) c h i j
            + ((List.range m.k).map (fun n => intOf m.a (Rules.elemA (s.tile k) m pa x i n)
                * intOf m.b (Rules.elemB (s.tile k) m pb x n j))).sum) % 2 ^ 32)
        ∧ (h ≠ .s32 → ∃ z : Nat → Nat → FRes,
          (∀ i j, z i j = Rules.grouped (if h = .f64 then fmtF64 else fmtF32) m.group (m.k / m.group)
            (Rules.product (s.tile k) m pa pb x i j) (Rules.accElem (s.tile k) c h i j))
          ∧ (∀ i j, i < Rules.dim h → j < Rules.dim h → Rules.accElem (t.tile k) c h i j = (z i j).1)
          ∧ ((t.tile k).acc c).flags = ((s.tile k).acc c).flags
              ||| orAll ((List.range (Rules.dim h * Rules.dim h)).map (fun n => z (n / Rules.dim h) (n % Rules.dim h))))))
    ∧ (∀ base pitch ty gx, e.op = .store base pitch ty gx → mstAccepts h ty = true → mstRow h ty ≤ pitch →
      base + mstSpan h ty pitch ≤ monLo →
      Completes .matrixCommandComplete s (fun t => (t.tile k).im.mats = r ∧ ((t.tile k).acc c).dirty = false
        ∧ (∀ i, i < 32 → Rules.accRow (t.tile k) c i = Rules.accRow (s.tile k) c i)
        ∧ (∃ (els : Nat → List FRes) (scale : Nat → Nat), (∀ i, i < Rules.dim h → Rules.outRow (s.tile k) c h ty gx i (els i) (scale i))
          ∧ (∀ i, i < Rules.dim h → Memory.read (t.tile k).im.store (base + i * pitch) (mstRow h ty)
              = toBytes (mstRow h ty) (packNat (mstBits ty) ((els i).map Prod.fst)))
          ∧ (16 ≤ ty.toNat → ∀ i, i < 32 →
              Sparse.get (t.tile k).im.store (base + 32 * pitch + i) = BitVec.ofNat 8 (scale i))
          ∧ ((t.tile k).acc c).flags = (List.range (Rules.dim h)).foldl (fun f i => f ||| orAll (els i))
              ((s.tile k).acc c).flags)
        ∧ (∀ a, a < monLo →
          if (∃ i, i < Rules.dim h ∧ base + i * pitch ≤ a ∧ a < base + i * pitch + mstRow h ty)
              ∨ (16 ≤ ty.toNat ∧ base + 32 * pitch ≤ a ∧ a < base + 32 * pitch + 32)
          then Sparse.get (t.tile k).im.tags (a / 16) = false
          else Sparse.get (t.tile k).im.store a = Sparse.get (s.tile k).im.store a)
        ∧ ∀ u, 16 * u + 16 ≤ monLo → Sparse.get (t.tile k).im.tags u ≠ Sparse.get (s.tile k).im.tags u →
          ∃ a, a / 16 = u ∧ ((∃ i, i < Rules.dim h ∧ base + i * pitch ≤ a ∧ a < base + i * pitch + mstRow h ty)
            ∨ (16 ≤ ty.toNat ∧ base + 32 * pitch ≤ a ∧ a < base + 32 * pitch + 32))))

/-- **Engines at work.** R71, R200, R203, R214, R216: the oldest matrix command leaves the queue, the accumulators as its
effect has them; a cpy moves its next 64 bytes and counts them; an input pump reads its next element, the lowest that it may
by the model's choice (log entry 91); an output pump writes its oldest appended element and forgets it. Each here moves whole,
none of its 8-byte units ahead (R75). -/
def Rules.EngineSteps : Prop :=
  ∀ (s : State) (k : Nat), s.arg.k = k → s.engineRuns k = true → s.arg.c = 0 →
    (∀ e r, (s.tile k).im.mats = e :: r → e.early = [] → e.wrote = [] → Completes .matrixCommandComplete s (fun t =>
      (t.tile k).im.mats = r ∧ (t.tile k).im.accMem = ((s.tile k).runMat e).im.accMem))
    ∧ (∀ e c n, s.arg.e = e → s.copyAt k e = c → c.prog.toNat = n → c.kind = .cpy → c.st = 0 → c.held = false →
      c.early = [] → c.wrote = [] → s.wellWaits k (addrPlus c.dst (64 * n)) = false →
      (s.tile k).isHead c = true → n + 1 < c.total → n + 1 < 2 ^ 41 →
      s.checkPages k (addrPlus c.dst (64 * n)) (min 64 (c.lend.toNat - 64 * n)) false true = none →
      s.checkPages k (addrPlus c.src (64 * n)) (min 64 (c.lend.toNat - 64 * n)) true false = none →
      Completes .copyElement s (fun t => (t.copyAt k e).prog.toNat = n + 1
        ∧ t.readBytes k (addrPlus c.dst (64 * n)) (min 64 (c.lend.toNat - 64 * n))
          = s.readBytes k (addrPlus c.src (64 * n)) (min 64 (c.lend.toNat - 64 * n))))
    ∧ (∀ q p u n, s.arg.q = q → s.arg.p = p → u = (s.procAt k q).pump p → u.bound = true →
      (u.out = false → u.early = [] → (s.tile k).freeze = none → u.nextFetch = some n →
        s.checkPages k (u.place n) 64 true false = none →
        Completes .inputPumpPrefetch s (fun t => SameBytes s t
          ∧ Sparse.get ((t.procAt k q).pump p).fetched n = some (s.vecAt k (u.place n))
          ∧ ((t.procAt k q).pump p).pos = u.pos))
      ∧ (∀ v r, u.out = true → u.stopped = false → (s.tile k).quiescent = false → u.pend = (n, v) :: r →
        u.wrote = [] → s.wellWaits k (u.place n) = false →
        s.checkPages k (u.place n) 64 false true = none → (∀ j, (s.procAt k j).pendFault = []) →
        Completes .outputPumpWrite s (fun t => ((t.procAt k q).pump p).pend = r
          ∧ t.readBytes k (u.place n) 64 = toBytes 64 v.toNat)))

/-- The writes of a copy that may land though nobody waits for them: those of a cpyx.out sent and not acknowledged (R98,
R223). -/
def Rules.strays (s : State) (k : Nat) (c : Copy) : List Stray :=
  if c.kind = .xout then c.sent.map (fun x =>
    { path := pathOf k c, order := c.order, place := s.farPlace k c x.elem, bytes := x.bytes })
  else []

/-- **External copies.** R45, R71, R80, R98, R222, R223: an element of a cpyx.out is sent with the bytes of its place, and its
acknowledgement puts them outside the panel; the data of an element read arrives at the tile; neither comes while a link of
the way is missing; an element not acknowledged in time pauses its copy and parks its issuer; an aborted copy is complete 10 us
later; a paused one then holds its elements as not done, outbound to be sent again with the same bytes, and what was sent may
land all the same (log entry 27); a dropped element counts. -/
def Rules.ExternalCopySteps : Prop :=
  ∀ (s : State) (k e : Nat) (c : Copy), s.arg.k = k → s.arg.e = e → e < 16 → s.copyAt k e = c → s.replaying k = false →
    s.presenting = false →
    (∀ n, s.arg.c = 0 → c.kind = .xout → c.st = 0 → c.held = false → s.engineRuns k = true → c.nextSend = some n → c.kept = [] →
      c.early = [] → s.checkPages k (c.localAt n) 64 true false = none →
      Completes .copyElement s (fun t => t.copyAt k e = { c with
        sent := c.sent ++ [{ elem := n, when_ := s.time, bytes := s.readBytes k (c.localAt n) 64 }] }))
    ∧ (∀ n x, c.kind = .xout → (s.tile k).pathClear k c = true → s.copyLive k c = true → c.firstSent = some n →
      c.sent.find? (fun y => y.elem == n) = some x → x.bytes.length = 64 →
      Completes .cpyxElementAck s (fun t => t.readFar (s.farPlace k c n) 64 = x.bytes))
    ∧ (c.isExternal = true → s.copyLive k c = false → ∀ i, i ∈ [Instr.cpyxElementAck, .cpyxReadDataArrives] →
      Completes i s (fun t => t = s))
    ∧ (∀ n, s.arg.j = n → s.arg.c = 0 → c.kind = .xin → c.st = 0 → s.copyLive k c = true →
      c.sent.any (fun x => x.elem == n) = true → c.prog.toNat + c.acked.length + 1 < c.total → c.total < 2 ^ 41 →
      c.early = [] → c.wrote = [] → s.wellWaits k (c.localAt n) = false →
      s.checkPages k (c.localAt n) 64 false true = none →
      Completes .cpyxReadDataArrives s (fun t =>
        t.readBytes k (c.localAt n) 64 = s.readFar (s.farPlace k c n) 64))
    ∧ (c.isExternal = true → c.st = 0 → c.held = false → c.wrote = [] → s.engineRuns k = true → (s.tile k).wdl ≠ 0 →
      c.sent.any (fun x => decide ((s.tile k).wdl.toNat ≤ s.time.toNat - x.when_.toNat)) = true →
      Completes .cpyxWatchdogExpiry s (fun t => t.copyAt k e = { c with st := 1 } ∧ t.strays = s.strays ++ Rules.strays s k c
        ∧ ((s.procAt k c.owner.toNat).st = .ready → (t.procAt k c.owner.toNat).st = .parked)))
    ∧ (c.isExternal = true → c.st = 2 → 10000 ≤ s.time.toNat - c.since.toNat →
      Completes .cpyxAbortTimeout s (fun t => t.copyAt k e = {} ∧ t.strays = s.strays ++ Rules.strays s k c))
    ∧ (c.isExternal = true → c.st ≠ 2 → c.held = true → 10000 ≤ s.time.toNat - c.since.toNat → c.kept = [] →
      c.wrote = [] → Completes .cpyxPauseAckTimeout s (fun t => (t.copyAt k e).sent = []
        ∧ (t.copyAt k e).kept = (if c.kind = .xout then c.sent else []) ∧ (t.copyAt k e).prog = c.prog
        ∧ (t.copyAt k e).st = c.st ∧ t.strays = s.strays ++ Rules.strays s k c))
    ∧ (s.arg.c = 1 → c.isExternal = true → c.sent.any (fun x => x.elem == s.arg.j) = true → c.wrote = [] →
      s.wellWaits k (c.localAt s.arg.j) = false →
      Completes .deliveryFails s (fun t =>
        (t.ptile (s.tile k).ptile).drop = satInc (s.ptile (s.tile k).ptile).drop))

/-- **Engines.** The matrix engine with the effect of each command, copies and pumps at work, and external copies; that a pump
reads the lowest element it may, and what may land of a copy that nobody waits for, are the model's (log entries 91, 27). -/
def Obligations.EnginesAtWork : Prop := Rules.EngineSteps ∧ Rules.MatrixEffects ∧ Rules.ExternalCopySteps

/-! Events: freezes, checkpoints, power, rotation, bring-up, queues, partitions, the blade and the registers. -/

/-- A requested freeze may be accepted: the vtile runs, is not frozen, not in replay and not lost; and no element is being
written, which the freeze would first have written whole. -/
def Rules.acceptsFreeze (s : State) (k : Nat) : Prop :=
  s.active k = true ∧ (s.tile k).freeze = none ∧ (s.tile k).replay = none ∧ (s.tile k).lost = false
    ∧ (s.tile k).failed = false ∧ (s.tile k).writing = false

/-- Every READY or BLOCKED process of a vtile is FROZEN with its state remembered, under a freeze that drains. -/
def Rules.halted (s t : State) (k : Nat) (kind : FreezeKind) : Prop :=
  (t.tile k).freeze = some { kind := kind, stage := .draining, since := s.time }
    ∧ (∀ q, q < 8 → ((s.procAt k q).st = .ready ∨ (s.procAt k q).st = .blocked) →
      (t.procAt k q).st = .frozen ∧ (t.procAt k q).prior = (s.procAt k q).st)
    ∧ (∀ q, q < 8 → (s.procAt k q).st ≠ .ready → (s.procAt k q).st ≠ .blocked → (t.procAt k q).st = (s.procAt k q).st)
    ∧ OnlyTile s t k

/-- **Whole-tile freezes.** R97, R99, R100: a tile accepts the waiting request of highest priority, its processes going FROZEN;
once drained it is quiescent; an emergency freeze with its condition gone and no request waiting is released, and the
processes not frozen by slotctl go on from the state before. -/
def Rules.TileFreezes : Prop :=
  ∀ (s : State) (k : Nat), s.arg.k = k →
    (∀ r, s.presenting = false → Rules.acceptsFreeze s k → firstRequest (s.tile k).requests = some r →
      Completes .freezeRequestAccepted s (fun t => Rules.halted s t k r
        ∧ (t.tile k).requests = (s.tile k).requests.filter (fun x => decide (x ≠ r))))
    ∧ (∀ f, (s.tile k).freeze = some f → f.stage = .draining → f.kind = .emergency → s.active k = true →
      s.drained k = true → Completes .tileQuiescent s (fun t => t = s.setTile k { s.tile k with
        freeze := some { f with stage := .quiescent } }))
    ∧ (∀ f, (s.tile k).freeze = some f → f.stage = .quiescent → f.kind = .emergency → (s.tile k).emergency = false →
      (s.region (regionOf (s.tile k).ptile)).emergency = false → (s.tile k).requests = [] →
      (∀ m ∈ s.msgs, m.held = false) →
      (∀ q, q < 8 → (s.procAt k q).st ≠ .blocked ∧ ((s.procAt k q).st = .frozen →
        (s.procAt k q).prior = .ready ∧ (s.procAt k q).efp = false ∧ (s.procAt k q).preempt = false)) →
      Completes .freezeRelease s (fun t => (t.tile k).freeze = none
        ∧ ∀ q, q < 8 → (s.procAt k q).st = .frozen →
          (t.procAt k q).st = (if (s.procAt k q).bySlotctl then .frozen else .ready)
          ∧ (t.procAt k q).pc = (s.procAt k q).pc))

/-- **Checkpoints and rollback.** R327 to R330, R333, R334, R356: a checkpoint that is due freezes its tile as a capture; a
marked page is streamed; with none left the staged checkpoint is the committed one and the log starts at its mark; the
merge ends; a log or snapshot pool as it comes near its end asks for a checkpoint, also while one is in progress, and then
holds traffic and well writes, until a commit; an uncorrectable error in a structure of the tile, or in a well page with a
snapshot, counts and puts the vtile back to its checkpoint, to replay, but for the monitor (log entry 31), with a MACHINE
record of the structure; at the log's end it leaves replay; a corrected error counts. -/
def Rules.Checkpoints : Prop :=
  ∀ (s : State) (k : Nat), s.arg.k = k →
    (s.mayCheckpoint k = true → (s.tile k).writing = false →
      ((s.tile k).ckDue = true ∨ (s.tile k).ck = none
        ∨ ∃ c, (s.tile k).ck = some c ∧ min (max s.rel.ckint.toNat 1000000) 10000000 ≤ s.time.toNat - c.time.toNat) →
      Completes .ckintExpiry s (fun t => Rules.halted s t k .capture ∧ (t.tile k).ckPending = false))
    ∧ (∀ c, s.mayCheckpoint k = true → (s.tile k).writing = false → (s.tile k).ckPending = true → (s.tile k).ck = some c →
      s.rel.ckmin.toNat ≤ s.time.toNat - c.time.toNat →
      Completes .ckminExpiry s (fun t => Rules.halted s t k .capture ∧ (t.tile k).ckPending = false))
    ∧ Completes .checkpointPageStreamed s (fun t => t = s.setTile k { s.tile k with
        marked := (s.tile k).marked.filter (fun n => n != s.arg.j) })
    ∧ (∀ c, (s.tile k).staged = some c → (s.tile k).marked = [] → (s.tile k).needsCommit = true →
      (∀ m ∈ s.msgs, m.held = false) → Completes .checkpointCommit s (fun t => OnlyTile s t k
        ∧ (t.tile k).ck = some c ∧ (t.tile k).starved = false ∧ (t.tile k).im = (s.tile k).im))
    ∧ (∀ c, (s.tile k).staged = some c → (s.tile k).marked = [] → (s.tile k).needsCommit = false →
      Completes .checkpointCommit s (fun t => OnlyTile s t k ∧ (t.tile k).ck = some c ∧ (t.tile k).staged = none
        ∧ (t.tile k).unmerged = true ∧ (t.tile k).log = (s.tile k).log.drop (s.tile k).logMark
        ∧ (t.tile k).snaps = (s.tile k).stagedSnaps ∧ (t.tile k).im = (s.tile k).im))
    ∧ Completes .stagingMergeComplete s (fun t => t = s.setTile k { s.tile k with unmerged := false })
    ∧ (s.arg.c = 0 → (s.tile k).replay = none → (s.tile k).freeze = none →
      Completes .inputLogThreshold s (fun t => OnlyTile s t k
        ∧ ((s.tile k).low = false → (26 * 2 ^ 20 < (s.tile k).logBytes + 2 ^ 20
            ∨ 512 < (s.tile k).snaps.length + (s.tile k).stagedSnaps.length + 64) → (t.tile k).ckDue = true)
        ∧ ((26 * 2 ^ 20 < (s.tile k).logBytes + 68 * 1024 ∨ 512 ≤ (s.tile k).snaps.length + (s.tile k).stagedSnaps.length) →
          (t.tile k).starved = true
          ∧ (∀ m : Msg, m.dst.vt = k → m.kind.claimOrData = true → s.presenting = false → t.holds m = true)
          ∧ (∀ a, wellLo ≤ a → s.presenting = false → t.wellWaits k a = true))
        ∧ (t.tile k).im = (s.tile k).im))
    ∧ (∀ c, s.active k = true → (s.tile k).lost = false → (s.tile k).failed = false → (s.tile k).ck = some c →
      (s.tile k).freeze = none → (s.tile k).log = [] → (s.tile k).replay = none →
      ((1 ≤ s.arg.c ∧ s.arg.c ≤ 8) ∨ (s.arg.c = 9 ∧ s.snapshotted k s.arg.j = true)) →
      Completes .rollback s (fun t => (∀ q, q ≠ 8 → t.procAt k q = c.im.procs.get q)
        ∧ (t.tile k).pt = c.pt ∧ (t.tile k).im.ends = c.im.ends ∧ (t.tile k).im.accs = c.im.accs
        ∧ (t.tile k).replay.isSome = true ∧ (t.tile k).tick = 0 ∧ (t.tile k).tlb = []
        ∧ (t.ptile (s.tile k).ptile).uce = satInc (s.ptile (s.tile k).ptile).uce
        ∧ (s.arg.c ≤ 8 → s.arg.k = k → s.arg.q < 8 → (s.tile k).held < 16 → (s.tile k).fqwait = [] →
          (t.tile k).fqtl = (s.tile k).fqtl + 1
          ∧ Memory.read (t.tile k).im.store (monLo + 32 * ((s.tile k).fqtl.toNat % 16)) 32
            = FaultRec.bytes { code := 0x41, slot := BitVec.ofNat 3 s.arg.q, src := 6
                               pc := (s.procAt k s.arg.q).pc.setWidth 32, time := s.time
                               aux := BitVec.ofNat 64 s.arg.c } (s.tile k).recNum)))
    ∧ (∀ e, (s.tile k).replay = some [e] → e.isEnd = true → (s.tile k).replayOver = true →
      (∀ m ∈ s.msgs, m.held = false) → Completes .replayEnd s (fun t => (t.tile k).replay = none))
    ∧ ∀ p, s.arg.p = p →
      (s.arg.c = 9 → Completes .correctedError s (fun t => (t.ptile p).hbmce = satInc (s.ptile p).hbmce))
      ∧ (1 ≤ s.arg.c → s.arg.c ≤ 8 → Completes .correctedError s (fun t =>
        Sparse.get (t.ptile p).ce s.arg.c = satInc (Sparse.get (s.ptile p).ce s.arg.c)))

/-- **Freezes and checkpoints.** That the monitor stands over a rollback, that a replay ends at the tick of the error, and the
rank of the requests that R100's table does not list are the model's (log entries 31, 33, 110). -/
def Obligations.FreezesAndCheckpoints : Prop := Rules.TileFreezes ∧ Rules.Checkpoints

/-- A region is powered, or its ramp is under way. -/
abbrev Rules.powered (x : Region) : Prop := x.power ≠ .off ∧ x.power ≠ .lost

/-- **Power, coolant and ramps.** R343, R344, R346: the supply out of range, a region's current, its heat and the coolant's flow
bring emergencies that clear when their condition ends, also to a region whose ramp is under way, and the ramp beside a
region in a power emergency waits; 100 ms without supply, power-downs and resets among them (R353), lose all state but the
non-volatile, the health state 3 that follows being published by the summary, vector 2 and the in-band interrupt unless it
stood (R355, R358); 10 s without flow lose every region; a ramp waits for a neighbour's current, goes on, waits no more past
its limit, and ends on, with the emergencies that every region is in, or lost when its converter fails (R298). -/
def Obligations.PowerAndCoolant : Prop :=
  ∀ (s : State) (r : Nat), s.arg.r = r →
    (s.health.supplyOut = false → Completes .supplyOutOfRange s (fun t =>
      t.health.supplyOut = true ∧ t.health.supplySince = s.time
      ∧ (∀ g, g < 48 → Rules.powered (s.region g) → (t.region g).emSupply = true)
      ∧ ∀ g n, g < 48 → Rules.powered (s.region g) → n ∈ neighbours g → (s.region n).power = .ramping →
        (t.region n).power = .held))
    ∧ (s.health.supplyOut = true → Completes .supplyBackInRange s (fun t =>
      t.health.supplyOut = false ∧ ∀ g, g < 48 → (t.region g).emSupply = false))
    ∧ (s.health.supplyOut = true → 100000000 ≤ s.health.absentNs + (s.time.toNat - s.health.supplySince.toNat) →
      Completes .supplyPowerdown s (fun t => t.vts = [] ∧ t.parts = [] ∧ t.regions = [] ∧ t.hbm = [] ∧ t.msgs = []
        ∧ t.queues = [] ∧ t.up = {} ∧ t.health.log = s.health.log ∧ t.health.nv = s.health.nv ∧ t.health.hstate = 3
        ∧ (s.health.hstate = 3 → t.health.eeprom0 = s.health.eeprom0 ∧ t.health.eeprom1 = s.health.eeprom1)
        ∧ (s.health.hstate ≠ 3 → t.msix = s.msix ++ [(0, 2)] ∧ t.health.inband = s.health.inband + 1)
        ∧ t.hostMem = s.hostMem))
    ∧ (Rules.powered (s.region r) →
      Completes .regionOvercurrent s (fun t => (t.region r).emPower = true
        ∧ ∀ n, n ∈ neighbours r → (s.region n).power = .ramping → (t.region n).power = .held)
      ∧ Completes .thermalEmergency s (fun t => (t.region r).emThermal = true))
    ∧ Completes .powerEmergencyClear s (fun t => (t.region r).emPower = false)
    ∧ Completes .thermalEmergencyClear s (fun t => (t.region r).emThermal = false)
    ∧ (s.health.flowLow = false → Completes .coolantFlowLow s (fun t => t.health.flowLow = true
      ∧ t.health.flowSince = s.time ∧ ∀ g, g < 48 → Rules.powered (s.region g) → (t.region g).emFlow = true))
    ∧ (s.health.flowLow = true → Completes .coolantFlowRestored s (fun t =>
      t.health.flowLow = false ∧ ∀ g, g < 48 → (t.region g).emFlow = false))
    ∧ (s.health.flowLow = true → 10000000000 ≤ s.time.toNat - s.health.flowSince.toNat →
      Completes .coolantFlowPowerdown s (fun t => ∀ g, g < 48 → (t.region g).power = .lost))
    ∧ ((s.region r).power = .ramping → Completes .rampNeighbourHold s (fun t =>
      t = { s with regions := Sparse.set s.regions r { s.region r with power := .held, heldSince := s.time } }))
    ∧ ((s.region r).power = .held →
      ((∀ n ∈ neighbours r, (s.region n).emPower = false ∧ (s.region n).emSupply = false) →
        Completes .rampNeighbourRelease s (fun t => (t.region r).power = .ramping))
      ∧ (10000000 ≤ (s.region r).waited + (s.time.toNat - (s.region r).heldSince.toNat) →
        Completes .rampWaitLimit s (fun t => (t.region r).power = .noWait)))
    ∧ (((s.region r).power = .ramping ∨ (s.region r).power = .noWait) → s.up.phase ≠ 3 →
      Completes .regionRampComplete s (fun t => (t.region r).power = (if s.arg.ok then .on else .lost)
        ∧ (s.arg.ok = true → (t.region r).emSupply = s.health.supplyOut ∧ (t.region r).emFlow = s.health.flowLow)))

/-- A screening's tile has its role and margin, and its counters of passes and failures count. -/
def Rules.screened (s t : State) (p : Nat) (role : Role) (margin : BitVec 32) (pass fail : Bool) : Prop :=
  (t.ptile p).role = role ∧ (t.ptile p).margin = margin
    ∧ (t.ptile p).scrp = (if pass then satInc (s.ptile p).scrp else (s.ptile p).scrp)
    ∧ (t.ptile p).scrf = (if fail then satInc (s.ptile p).scrf else (s.ptile p).scrf)

/-- How a screening ends (R338): at a failure of BIST, or a margin lower than the limit against the first, in retirement
without a report; with the pool of snapshots full, without a verdict; at a replay that diverges, or whose state hash is not that
of the vtile, reported, and in retirement, itself reported, when the policy says so; else passed. -/
def Rules.ScreeningEnds (s : State) (p : Nat) (x : Screen) : Prop :=
  (s.arg.screen = .bistFail →
    Completes .screeningComplete s (fun t => Rules.screened s t p .retired (s.ptile p).margin false true
      ∧ t.rel.made = s.rel.made))
  ∧ (s.arg.screen ≠ .bistFail →
    ((s.rel.mgnlim.toNat : Int) < s.arg.rate.toInt →
      Completes .screeningComplete s (fun t => Rules.screened s t p .retired s.arg.rate false true
        ∧ t.rel.made = s.rel.made))
    ∧ (s.arg.rate.toInt ≤ (s.rel.mgnlim.toNat : Int) →
      (s.screenFull x = true → Completes .screeningComplete s (fun t =>
        Rules.screened s t p .spare s.arg.rate false false ∧ t.rel.made = s.rel.made + 1))
      ∧ (s.screenFull x = false →
        ((s.arg.screen = .diverged ∨ s.arg.bytes ≠ x.hash) → Completes .screeningComplete s (fun t =>
          Rules.screened s t p (if s.rel.scr then .retired else .spare) s.arg.rate false true
            ∧ t.rel.made = s.rel.made + (if s.rel.scr then 2 else 1)))
        ∧ (s.arg.screen ≠ .diverged → s.arg.bytes = x.hash → Completes .screeningComplete s (fun t =>
          Rules.screened s t p .spare s.arg.rate true false)))))

/-- A router of a list has an earlier one of its region before it. -/
def Rules.later (l : List Nat) (i : Nat) : Prop := ∃ a b j, l = a ++ i :: b ∧ j ∈ a ∧ regionOf j = regionOf i

/-- **Rotation and losses.** R335 to R341: a retirement that waits starts a step before a routine one; the warm spare asks for
the rotation freeze; the routers of each region get the new map one by one, the regions in parallel, and acknowledge it, and
with the last of them the tile left becomes a stub; a screening ends with its tile's role, what it found coming with the event
and a margin at the limit passing (log entry 56); a tile's failure, the loss of a vtile, of a stack and of a well page without
a snapshot are recorded, and reports are written while the ring has room. -/
def Obligations.RotationAndLosses : Prop :=
  ∀ (s : State) (r c p k : Nat), s.arg.r = r → s.arg.c = c → s.arg.p = p → s.arg.k = k →
    (∀ x q, s.step r c = none → s.up.phase = 7 → s.rel.rotStop = false → s.nextRetirement r c = some x →
      s.pickSpare r c true = some q →
      Completes .rotationStepStart s (fun t => ∃ y, t.step r c = some y ∧ y.from_ = x.ptile.toNat ∧ y.dest = q
        ∧ y.retire = true ∧ y.stage = .warm))
    ∧ (∀ j q, s.step r c = none → s.up.phase = 7 → s.rel.rotStop = false → s.nextRetirement r c = none →
      s.stepDue r c = true → s.nextRoutine r c = some j → s.pickSpare r c false = some q →
      Completes .rotationStepStart s (fun t => ∃ y, t.step r c = some y ∧ y.from_ = j ∧ y.dest = q
        ∧ y.retire = false ∧ y.stage = .warm))
    ∧ (∀ x j, s.step r c = some x →
      (x.stage = .warm → (s.ptile x.from_).failed = false → s.activeOn x.from_ = some j →
        Completes .rotationWarmComplete s (fun t => t.step r c = some { x with stage := .freezing }
          ∧ (t.tile j).requests.contains .rotation = true))
      ∧ (x.stage = .mapping → x.routers.Nodup →
        (Rules.later x.routers j → Completes .routerMapUpdate s (fun t => ∃ l, t.step r c = some { x with routers := l }
          ∧ l.Sublist x.routers ∧ ∀ i, i ∈ l ↔ Rules.later x.routers i))
        ∧ ((∀ i, ¬Rules.later x.routers i) → Completes .routerMapUpdate s (fun t =>
          t.step r c = some { x with routers := [], stage := .done } ∧ (t.ptile x.from_).stub = some x.dest
          ∧ (t.ptile x.from_).role = (if x.retire then .retired else .screening))))
      ∧ (∀ l, x.routers.contains p = false → x.unacked.contains p = true →
        l = x.unacked.filter (fun i => i != p) → l ≠ [] →
        Completes .routerMapAck s (fun t => t.step r c = some { x with unacked := l })))
    ∧ (∀ x, s.rel.screens.find? (fun e => decide (e.ptile = p)) = some x → Rules.ScreeningEnds s p x)
    ∧ Completes .tileFailure s (fun t => (t.ptile p).failed = true
        ∧ ∀ j ∈ s.keysOn p, s.active j = true → (t.tile j).failed = true)
    ∧ (s.hasTile k = true → (s.ptile (s.tile k).ptile).failed = true → s.rotating (s.tile k).ptile = false →
      s.spares (regionOf (s.tile k).ptile) 0 = [] → s.spares (regionOf (s.tile k).ptile) 1 = [] →
      s.screeningIn (regionOf (s.tile k).ptile) = false →
      (s.tile k).lost = false → Completes .vtileLost s (fun t => (t.tile k).lost = true
        ∧ (t.ptile (s.tile k).ptile).role = .lost ∧ ∀ e, (t.homeAt k e).e = 0))
    ∧ (s.stackLost r c = false → Completes .stackLost s (fun t => t.stackLost r c = true))
    ∧ (entryM (Sparse.get (s.tile k).pt s.arg.j) = true → s.snapshotted k s.arg.j = false → Completes .wellPageLost s (fun t =>
      Sparse.get (t.tile k).pt s.arg.j = Sparse.get (s.tile k).pt s.arg.j &&& ~~~1
      ∧ Sparse.get (t.tile k).tlb s.arg.j = 0 ∧ t.rel.made = s.rel.made + 1
      ∧ ∃ x, t.rel.waiting = s.rel.waiting ++ [x] ∧ x.ty = 3 ∧ x.aux = BitVec.ofNat 64 s.arg.j
        ∧ x.rseq = s.rel.made + 1))
    ∧ (∀ x l, s.rel.waiting = x :: l → (x.ty ≠ 4 ∨ 1000000 ≤ s.time.toNat - x.t0.toNat) → s.rel.rren = true → s.up.hostLink = true →
      (s.rel.rrtl - s.rel.rrhd).toNat < 2 ^ s.rel.ringLog →
      Completes .reportWrite s (fun t => t.rel.waiting = l ∧ t.rel.rrtl = s.rel.rrtl + 1 ∧ t.msix = s.msix ++ [(0, 2)]
        ∧ Memory.read t.hostMem (s.rel.rrbase.toNat + 64 * (s.rel.rrtl.toNat % 2 ^ s.rel.ringLog)) 64 = x.entry))

/-- **Bring-up.** R92, R296 to R298, R302, R305 to R307, R361: PERST# deasserted opens phase 1, with the host link up where
the host can use FLIT mode, and asserted loses all state; go over the host link starts the check of the bundle at the address
and length that it holds then, whose result is power or phase 15 with its error, 2 when the read fails or the link is gone;
training ends with BIST, BIST with every logged tile retired and its counters kept, and the division of the tiles, the monitor
image loaded on every one of them, with the panel ready, BIST and the division being two events of the model (log entry 112);
package time is set once, never backward, and disciplined by its source, by what the event brings (log entry 64); the monitors
of a region reload and restart. -/
def Obligations.BringUpEvents : Prop :=
  ∀ (s : State),
    (s.up.reset = true → s.health.supplyOut = false → Completes .perstDeassert s (fun t => t = { s with
      up := { s.up with reset := false, hostLink := decide (s.arg.c ≠ 1), phase := 1 }
      ev := { s.ev with latchOpen := false, supplyAbsent := false } }))
    ∧ Completes .conventionalReset s (fun t => t.vts = [] ∧ t.parts = [] ∧ t.regions = [] ∧ t.hbm = [] ∧ t.up = {}
        ∧ t.health.log = s.health.log ∧ t.hostMem = s.hostMem)
    ∧ (s.up.reset = false → s.up.hostLink = true → s.up.d3 = false → s.arg.v.getLsbD 0 = true →
      ((s.up.phase = 1 ∨ s.up.phase = 15) → Completes .bdlgoWrite s (fun t =>
        t.up = { s.up with phase := 2, err := 0, goaddr := s.up.bdladdr, golen := s.up.bdllen }))
      ∧ (s.up.phase = 7 → Completes .bdlgoWrite s (fun t => t.up = { s.up with err := 5 })))
    ∧ (∀ l failed, s.up.phase = 2 → l = Memory.read s.hostMem s.up.goaddr.toNat s.up.golen.toNat →
      failed = (s.arg.ok || !s.up.hostLink) →
      (failed = true → Completes .bundleCheckDone s (fun t => t.up = { s.up with phase := 15, err := 2 }))
      ∧ (bundleError l failed ≠ 0 → Completes .bundleCheckDone s (fun t =>
        t.up = { s.up with phase := 15, err := BitVec.ofNat 8 (bundleError l failed) }))
      ∧ (bundleError l failed = 0 →
        (∀ n ∈ neighbours (regionAt 0), (s.region n).emPower = false ∧ (s.region n).emSupply = false) →
        Completes .bundleCheckDone s (fun t =>
          t.up.phase = 3 ∧ t.up.bundle = l ∧ (t.region (regionAt 0)).power = .ramping)))
    ∧ (s.up.phase = 4 → Completes .linkTrainingDone s (fun t => t.up.phase = 5 ∧ t.links = s.linkTable s.arg.links))
    ∧ (s.up.phase = 5 → Completes .bistDone s (fun t => t.up.phase = 6
        ∧ ∀ p, p < 6144 → (t.ptile p).uce = (Sparse.get s.health.nv p).uce
          ∧ ((∃ i x, (i, some x) ∈ s.health.log ∧ x.ptile.toNat = p) → (t.ptile p).role = .retired)))
    ∧ (s.up.phase = 6 → Completes .bistDone s (fun t => t.up.phase = 7 ∧ (0, 3) ∈ t.msix
        ∧ ∀ r, r < 48 → (s.region r).power = .on → (t.region r).divided = true
          ∧ ∀ p ∈ regionTiles r, (t.ptile p).mon = true))
    ∧ (s.up.tset = false → s.barOpen = true → s.up.phase ≠ 7 → Completes .tsetWrite s (fun t =>
      t = { s with time := if s.time.toNat < s.arg.v.toNat then s.arg.v else s.time, up := { s.up with tset := true } }))
    ∧ (s.up.phase = 7 →
      (s.up.tsrc = 1 → s.up.reset = false → s.up.hostLink = true → s.up.ptmint.toNat ≤ s.time.toNat - s.up.ptmTime.toNat → Completes .ptmRequest s (fun t =>
        t.time = s.time ∧ t.up.ppm = max (-200) (min 200 s.arg.rate.toInt) ∧ t.up.ptmTime = s.time))
      ∧ (s.up.tsrc = 2 → s.linkLive 14544 = true → Completes .ieee1588SyncMessage s (fun t =>
        t = { s with up := { s.up with ppm := max (-200) (min 200 s.arg.rate.toInt) } })))
    ∧ (s.barOpen = true → s.arg.v.getLsbD 8 = true → s.up.mrphase ≠ 1 →
      ((s.arg.v.setWidth 6 : BitVec 6).toNat ≤ 47 → s.up.rgphase ≠ 1 → Completes .monitorReload s (fun t =>
        t = { s with up := { s.up with
          mrregion := s.arg.v.setWidth 6, mrphase := 1, mrerr := 0, mract := s.arg.v.setWidth 6 } }))
      ∧ (47 < (s.arg.v.setWidth 6 : BitVec 6).toNat → Completes .monitorReload s (fun t =>
        t.up = { s.up with mrregion := s.arg.v.setWidth 6, mrphase := 15, mrerr := 2 } ∧ t.msix = s.msix ++ [(0, 2)])))
    ∧ (s.up.mrphase = 1 → Completes .monitorReloadDone s (fun t => t.up = { s.up with mrphase := 2, mrerr := 0 }
        ∧ t.msix = s.msix ++ [(0, 2)]
        ∧ ∀ k ∈ s.vtilesIn s.up.mract.toNat, t.procAt k 8 = monStart ∧ (t.tile k).monStop = false
          ∧ (t.tile k).fqtl = (s.tile k).fqtl ∧ (t.tile k).fqhd = (s.tile k).fqhd))

/-- The command at the head of a queue that begins, before it takes its effect: it is in the list of those begun, its tag
known, and its entry taken. -/
def Rules.begins (s : State) (q op : Nat) (e : List Byte) (c : Command) (u : State) : Prop :=
  s.nextCommand q = some e ∧ byteOf e 0 = op ∧ s.evicting = false
    ∧ c = { idx := (Sparse.get s.queues q).tags.length, op := op, tenant := byteOf e 1, tag := BitVec.ofNat 32 (leField e 4 4) }
    ∧ u = { s with queues := Sparse.set s.queues q { Sparse.get s.queues q with
        fetched := (Sparse.get s.queues q).fetched.drop 1
        tags := (Sparse.get s.queues q).tags ++ [(c.tag, false)]
        begun := (Sparse.get s.queues q).begun ++ [c] } }

/-- **Commands.** R17, R309 to R312, R320 to R322: a LOAD that passes every check in their order loads its network and completes
OK with the next netid, one that does not completes REFUSED with the reason of the first that fails and changes nothing; a
START of the network loaded and not started starts it; a STOP with nothing resident, or of a network that is loaded and not
started, which is resident too (log entry 66), completes at once; one of a network that runs kills its processes and discards
its pools; a SWITCH to the active tenant and a WAIT-FOR of a completed command complete at once; a SWITCH to no tenant of the
partition is refused; a SWITCH and an EVICT ask the active tiles to freeze and begin their scrub, the EVICT with the tenant's
network stopped. -/
def Rules.CommandsBegin : Prop :=
  ∀ (s u : State) (q : Nat) (e : List Byte) (c : Command) (b : QBlock), s.arg.q = q → b = Sparse.get u.queues q →
    (∀ r, Rules.begins s q 1 e c u → r = u.loadRead c.tenant e s.arg.v.toNat →
      (u.loadRefuses q c.tenant r = 0 → Completes .load s (fun t =>
        (Sparse.get t.nets (netKey q c.tenant)).netid = u.nextNetid q c.tenant
        ∧ (Sparse.get t.nets (netKey q c.tenant)).resident = true
        ∧ (Sparse.get t.nets (netKey q c.tenant)).started = false
        ∧ t.netCount = s.netCount + 1
        ∧ ∃ d, d ∈ (Sparse.get t.queues q).done
          ∧ d = { idx := c.idx, tag := c.tag, op := 1, status := doneOk, reason := 0, data := u.nextNetid q c.tenant }))
      ∧ (u.loadRefuses q c.tenant r ≠ 0 → Completes .load s (fun t =>
        t = u.completeCmd q c doneRefused (u.loadRefuses q c.tenant r) 0)))
    ∧ (∀ w, Rules.begins s q 2 e c u → w = Sparse.get u.nets (netKey q c.tenant) →
      (Sparse.get u.parts q).activeTenant = some c.tenant → w.resident = true → w.started = false →
      w.netid = (if cmdA e 0 = 0 then b.lastLoad c.tenant else BitVec.ofNat 64 (cmdA e 0)) →
      w.queue = q → w.receipt = false →
      Completes .start s (fun t => (Sparse.get t.nets (netKey q c.tenant)).started = true
        ∧ (Sparse.get t.nets (netKey q c.tenant)).resident = true))
    ∧ (Rules.begins s q 3 e c u → cmdA e 0 = 0 → (Sparse.get u.nets (netKey q c.tenant)).resident = false →
      Completes .stop s (fun t => t = u.completeCmd q c doneOk 0 0))
    ∧ (∀ n w, Rules.begins s q 3 e c u → cmdA e 0 = 0 → n = netKey q c.tenant → w = Sparse.get u.nets n →
      w.resident = true → w.queue = q →
      (w.started = false → (∀ d ∈ b.begun, d.op ≠ 2 ∨ d.netid ≠ w.netid) → Completes .stop s (fun t =>
        (Sparse.get t.nets n).resident = false ∧ ∃ d, d ∈ (Sparse.get t.queues q).done
          ∧ d = { idx := c.idx, tag := c.tag, op := 3, status := doneOk, reason := 0, data := 1 }))
      ∧ (w.started = true → Completes .stop s (fun t => (Sparse.get t.nets n).stopping = true
        ∧ ∀ v k, v < w.nv → k = n * 65536 + v → (s.tile k).lost = false → (s.tile k).replay = none →
          (t.tile k).im.pool = [] ∧ ∀ j, j < 8 → (t.procAt k j).st = .empty ∨ (t.procAt k j).st = .exited)))
    ∧ (Rules.begins s q 4 e c u → s.healthState = s.health.hstate → (c.tenant ≥ 16 ∨ (u.part q).slotOf c.tenant = none) →
      Completes .switch s (fun t => t = u.completeCmd q c doneRefused 10 0))
    ∧ (Rules.begins s q 4 e c u → c.tenant < 16 → ((u.part q).slotOf c.tenant).isSome = true →
      ((u.part q).activeTenant = some c.tenant → s.healthState = s.health.hstate → Completes .switch s (fun t => t = u.completeCmd q c doneOk 0 0))
      ∧ ((u.part q).activeTenant ≠ some c.tenant → (u.part q).regions ≠ 0 → (u.part q).state ≠ 0 → u.partState q ≠ 2 →
        u.scrubOver { cause := causeSwitch, part := q, outgoing := (u.part q).activeTenant.map (BitVec.ofNat 4)
                      incoming := some (BitVec.ofNat 4 c.tenant), regions := (u.part q).regions } = false →
        Sparse.wf u.vts = true →
        Completes .switch s (fun t => (t.part q).state = 3 ∧ (∀ k ∈ u.activeKeys q, (t.tile k).requests.contains .switch = true)
          ∧ (∃ sc ∈ t.scrubs, sc.cause = causeSwitch ∧ sc.part = q ∧ sc.regions = (u.part q).regions))))
    ∧ (Rules.begins s q 5 e c u → (u.part q).state ≠ 0 → u.partState q = 1 → c.tenant < 16 →
      ((u.part q).slotOf c.tenant).isSome = true → (Sparse.get u.nets (netKey q c.tenant)).resident = false →
      Sparse.wf u.vts = true →
      u.scrubOver { cause := causeEvict, part := q, outgoing := some (BitVec.ofNat 4 c.tenant)
                    regions := (u.part q).regions } = false →
      Completes .evict s (fun t => (t.part q).state = 4
        ∧ ((u.part q).activeTenant = some c.tenant → ∀ k ∈ u.activeKeys q, (t.tile k).requests.contains .evict = true)
        ∧ ∃ sc ∈ t.scrubs, sc.cause = causeEvict ∧ sc.part = q ∧ sc.outgoing = some (BitVec.ofNat 4 c.tenant)))
    ∧ (∀ n w, Rules.begins s q 5 e c u → (u.part q).state ≠ 0 → u.partState q = 1 → c.tenant < 16 →
      ((u.part q).slotOf c.tenant).isSome = true → n = netKey q c.tenant → w = Sparse.get u.nets n → w.resident = true →
      u.scrubOver { cause := causeEvict, part := q, outgoing := some (BitVec.ofNat 4 c.tenant)
                    regions := (u.part q).regions } = false →
      Completes .evict s (fun t => (t.part q).state = 4
        ∧ (w.started = true → (Sparse.get t.nets n).stopping = true)
        ∧ (w.started = false → (Sparse.get t.nets n).resident = false)
        ∧ ((u.part q).activeTenant = some c.tenant → ∀ k ∈ t.activeKeys q, (t.tile k).requests.contains .evict = true)
        ∧ ∃ sc ∈ t.scrubs, sc.cause = causeEvict ∧ sc.part = q ∧ sc.outgoing = some (BitVec.ofNat 4 c.tenant)))
    ∧ (Rules.begins s q 6 e c u →
      (b.lastTag c.idx (BitVec.ofNat 32 (cmdA e 0)) = none →
        Completes .waitFor s (fun t => t = u.completeCmd q c doneRefused 13 0))
      ∧ (∀ i, b.lastTag c.idx (BitVec.ofNat 32 (cmdA e 0)) = some i → b.completed i = true →
        Completes .waitFor s (fun t => ∃ d, d ∈ (Sparse.get t.queues q).done
          ∧ d = { idx := c.idx, tag := c.tag, op := 6, status := doneOk, reason := 0, data := 0 })))

/-- **Queues and starts.** R17, R25, R31, R306, R308, R311: over the host link a doorbell sets the tail unless too many commands
would be unfetched; a completion record is written while its ring has room; a function-level reset of the physical function
disables every queue, fetched commands dropped (log entry 72), and the virtual functions (log entry 102), and one of a tenant's
unbinds its host apertures; the initial processes of a vtile become READY; a pool entry takes an EMPTY slot, the lowest by the
model's choice (log entry 117); a candidate of 256 tc is aged. -/
def Rules.QueuesAndStarts : Prop :=
  ∀ (s : State) (q k : Nat) (b : QBlock), s.arg.q = q → s.arg.k = k → b = Sparse.get s.queues q →
    (q < 48 → s.barOpen = true → ((s.arg.v.setWidth 32 : BitVec 32) - b.lqhd).toNat ≤ 2 ^ b.qsize.toNat →
      Completes .doorbellWrite s (fun t => (Sparse.get t.queues q).tail = s.arg.v.setWidth 32))
    ∧ (∀ c r, b.done = c :: r → s.up.hostLink = true → (b.cqtl - b.cqhd).toNat < 2 ^ b.qsize.toNat →
      Completes .completionRecordWrite s (fun t => (Sparse.get t.queues q).done = r
        ∧ (Sparse.get t.queues q).cqtl = b.cqtl + 1 ∧ t.msix = s.msix ++ [(0, 0)]
        ∧ Memory.read t.hostMem (b.cqbase.toNat + 16 * (b.cqtl.toNat % 2 ^ b.qsize.toNat)) 16 = c.bytes))
    ∧ (s.up.reset = false → s.up.hostLink = true → Completes .flrPf s (fun t => t.up.vfs = false ∧ ∀ j, j < 48 →
        (Sparse.get t.queues j).en = false ∧ (Sparse.get t.queues j).fetched = []))
    ∧ (∀ n, s.arg.n = n → s.up.reset = false → s.up.hostLink = true → s.up.vfs = true → 1 ≤ n → n ≤ 15 → Completes .flrVf s (fun t => ∀ j ∈ s.netKeys, j % 16 = n →
        ∀ a ∈ (Sparse.get t.nets j).apertures, a.2.peer = true))
    ∧ (∀ p l, s.mayStart k = true → (s.tile k).lost = false → s.active k = true → (s.tile k).freeze = none →
      (s.tile k).replay = none → (s.tile k).runs = true →
      (s.netOf k).places.filter (fun p => decide (p.vtile = k % 65536)) = l → p ∈ l →
      (∀ r ∈ l, r.slot = p.slot → r = p) → p.slot < 8 →
      Completes .networkStart s (fun t => (t.procAt k p.slot).st = .ready ∧ (t.procAt k p.slot).pc = p.entry
        ∧ (t.procAt k p.slot).prio = p.prio ∧ Sparse.get (t.tile k).im.consts 4 = s.time))
    ∧ (∀ e r j, (s.tile k).im.pool = e :: r → (s.tile k).emptySlot = some j → (s.tile k).freeze = none → Completes .poolEntryTakesSlot s (fun t => OnlyTile s t k ∧ (t.tile k).im.pool = r
        ∧ (t.procAt k j).st = .ready ∧ (t.procAt k j).pc = e.entry ∧ (t.procAt k j).pnum = e.num
        ∧ (t.procAt k j).prio = e.prio ∧ (t.procAt k j).rg 5 = dataReg e.arg ∧ (t.procAt k j).rg 6 = dataReg e.num))
    ∧ ((s.procAt k q).st = .ready → 256 ≤ (s.procAt k q).ageing.toNat → Completes .ageingThreshold s (fun t =>
      Rules.onlyProc s t k q { s.procAt k q with aged := true }))

/-- **Launch queues.** Commands, records, resets and starts. That a loaded network is resident, which reason a LOAD gives among
several, what a reset drops, that it disables the virtual functions and which slot a pool entry takes are the model's (log
entries 66, 69, 72, 102, 117). -/
def Obligations.LaunchQueues : Prop := Rules.CommandsBegin ∧ Rules.QueuesAndStarts

/-- **Partitions, scrubs and receipts.** R307, R315 to R319, R323 to R325: a form or a dissolution whose checks hold is in phase
1 and marks the partitions that it meets, and one whose checks fail ends with the error of the first that does; an
admission to a vacant slot is in phase 3, with the partition in state 2 when the slot is the active one (log entries 73 and
74), and ends with the tenant in it; a tile's scrub sets its bit; a receipt is signed with its number, in 17,088 bytes; the
reset of a region darkens it, and ends with its tiles divided, or is refused with the error of the first of its checks (log
entry 50). -/
def Obligations.PartitionsAndScrubs : Prop :=
  ∀ (s : State) (p : Nat), s.arg.p = p →
    (∀ i m x, (i, m) ∈ [(Instr.partitionForm, (0 : BitVec 2)), (.partitionDissolve, 1)] → s.up.phase = 7 →
      s.barOpen = true → s.arg.v.getLsbD 16 = true → (s.arg.v.setWidth 2 : BitVec 2) = m → s.ten.changing = false →
      x = ({ s with ten := s.ten.setPcop s.arg.v } : State) →
      (∀ l, x.partsWith x.ten.pcregions = l →
        (∀ j, j = x.changeRefuses (if m = 0 && !l.contains (firstIndex x.ten.pcregions)
            then l ++ [firstIndex x.ten.pcregions] else l) →
          (j ≠ 0 → Completes i s (fun t => t.ten.pcphase = 15 ∧ t.ten.pcerr = BitVec.ofNat 8 j ∧ t.parts = s.parts))
          ∧ (j = 0 → (∃ k ∈ l.flatMap s.activeKeys, (s.tile k).lost = false ∧ (s.tile k).freeze = none) →
            Completes i s (fun t => t.ten.pcphase = 1 ∧ t.ten.affected = l
              ∧ ∀ q ∈ l, (s.part q).state ≠ 0 → (t.part q).state = 2)))))
    ∧ (∀ x q slot, s.up.phase = 7 → s.barOpen = true → s.arg.v.getLsbD 16 = true → (s.arg.v.setWidth 2 : BitVec 2) = 2 →
      s.ten.changing = false → x = s.ten.setPcop s.arg.v → x.pcpart.toNat = q → (s.part q).state ≠ 0 →
      (s.part q).slotOf x.pctenant.toNat = none → (s.part q).vacant = some slot →
      Completes .partitionAdmit s (fun t => t.ten.pcphase = 3 ∧ t.ten.pcerr = 0 ∧ t.ten.pcslot = slot
        ∧ ((s.part q).isActive slot = false → t.parts = s.parts)
        ∧ ((s.part q).isActive slot = true → (t.part q).state = 2)))
    ∧ (∀ q slot, s.ten.pcphase = 3 → s.scrubOfChange = none → s.ten.pcop = 2 → s.ten.pcpart.toNat = q →
      s.ten.pcslot = slot → (s.part q).state ≠ 0 → s.partState q = 1 → Completes .partitionChangeDone s (fun t =>
        t.ten.pcphase = 4 ∧ (t.part q).slotOf s.ten.pctenant.toNat ≠ none ∧ (t.part q).state = 1
        ∧ (if slot = 0 then (t.part q).t0 else (t.part q).t1) = s.ten.pctenant))
    ∧ (∀ sc, s.scrubs = [sc] → sc.regions.getLsbD (regionPath.getD (regionOf p) 0) = true → sc.cause = causeForm →
      s.scrubbable p = true → s.ten.pcphase = 3 → Completes .scrubComplete s (fun t =>
        t.scrubs = [if sc.bits.contains p then sc else { sc with bits := sc.bits ++ [p], last := s.time }]
          ∧ t.ten.pcphase = 3))
    ∧ (∀ r, s.receipts.find? (fun r => !r.signed) = some r → Completes .receiptSigned s (fun t =>
        t.ten.rhead = r.rseq ∧ t.msix = s.msix ++ [(0, 2)]
        ∧ ∀ x ∈ t.receipts, x.rseq = r.rseq → x.signed = true
          ∧ x.signature = (List.range 17088).map (Config.receiptSignature x.message)))
    ∧ (∀ r, s.up.phase = 7 → s.barOpen = true → s.arg.v.getLsbD 8 = true → (s.arg.v.setWidth 6 : BitVec 6).toNat = r →
      s.up.rgphase ≠ 1 →
      (s.resetRefuses r = 0 → (∀ n ∈ neighbours r, (s.region n).emPower = false ∧ (s.region n).emSupply = false) →
        Completes .regionReset s (fun t => t.up.rgphase = 1 ∧ t.up.rgregion = s.arg.v.setWidth 6
        ∧ t.up.rgact = s.arg.v.setWidth 6 ∧ (t.region r).power = .ramping ∧ ∀ k, k ∈ t.vts.map (fun e => e.1) → k ∉ s.vtilesIn r))
      ∧ (s.resetRefuses r ≠ 0 → Completes .regionReset s (fun t => t.up.rgphase = 15
        ∧ t.up.rgerr = BitVec.ofNat 8 (s.resetRefuses r) ∧ t.regions = s.regions ∧ t.vts = s.vts)))
    ∧ (s.up.rgphase = 1 → (s.region s.up.rgact.toNat).power = .on → s.arg.bad = [] →
      Completes .regionResetDone s (fun t => t.up.rgphase = 2 ∧ (t.region s.up.rgact.toNat).divided = true))

/-- **Links and optical ports.** R301, R306, R347 to R349: a link only gets worse; the host link that is lost stalls the queues;
a data codeword of a live lane is acknowledged, or its resend requested, and a codeword of acknowledgements leaves with up to
160 of them from its port's lanes, those of a lane in their order; an acknowledgement ends its codeword; an idle codeword
changes nothing; a lane locks in training or counts as not working; a port without signal has its link missing. A codeword is
what the event says of it (log entry 76), and of two links the one of lower rate is the worse (log entry 78). -/
def Rules.LinksAndPorts : Prop :=
  ∀ (s : State) (i p c : Nat), s.arg.n = i → s.arg.p = p → s.arg.c = c →
    (∀ l, i < 14593 → s.links ≠ [] → l = Sparse.get s.links i → l.cond ≠ 15 →
      (c = 15 → Completes .linkDegrade s (fun t => Sparse.get t.links i = { l with cond := 15, rate := 0 }
        ∧ ∀ j, j ≠ i → Sparse.get t.links j = Sparse.get s.links j))
      ∧ (1 ≤ c → c ≤ 3 → s.arg.rate.toNat < l.rate.toNat → Completes .linkDegrade s (fun t =>
        Sparse.get t.links i = { l with cond := BitVec.ofNat 4 c, rate := s.arg.rate }
        ∧ ∀ j, j ≠ i → Sparse.get t.links j = Sparse.get s.links j)))
    ∧ (s.up.hostLink = true → Completes .hostLinkDown s (fun t => t.up = { s.up with hostLink := false }
        ∧ (s.links ≠ [] → (Sparse.get t.links 14592).cond = 15)))
    ∧ (p < 48 → c < 64 → (Sparse.get s.optPorts p).lanes.contains c = true → s.linkLive (14544 + p) = true →
      (s.arg.ok = false → (s.lane p c).toAck.length < 254 →
        ((s.lane p c).bad.filter (fun x => x == s.arg.seq)).length < 15 → Completes .opticalDataCodeword s (fun t => (t.lane p c).toAck = (s.lane p c).toAck
        ++ [{ seq := s.arg.seq, lane := BitVec.ofNat 4 (c % 16), resend := true, pair := BitVec.ofNat 2 (c / 16) }]
        ∧ t.msgs = s.msgs))
      ∧ (s.arg.ok = true → (s.lane p c).toAck.length < 254 → Completes .opticalDataCodeword s (fun t => (t.lane p c).toAck = (s.lane p c).toAck
        ++ [{ seq := s.arg.seq, lane := BitVec.ofNat 4 (c % 16), resend := false, pair := BitVec.ofNat 2 (c / 16) }])))
    ∧ (p < 48 → c = 1 → s.linkLive (14544 + p) = true →
      ((List.range 64).map (fun l => (s.lane p l).toAck.length)).foldl (· + ·) 0 ≤ 160 →
      Completes .opticalAckCodeword s (fun t => (∀ l, l < 64 → (t.lane p l).toAck = [])
        ∧ ∃ out, t.acksOut = s.acksOut ++ [(p, out)]
          ∧ out.length = ((List.range 64).map (fun l => (s.lane p l).toAck.length)).foldl (· + ·) 0
          ∧ ∀ l, l < 64 → (s.lane p l).toAck.Sublist out))
    ∧ (∀ a, c ≠ 1 → s.arg.acks = [a] → a.resend = false → Completes .opticalAckCodeword s (fun t =>
        t = { s with farOut := s.farOut.filter (fun m => !m.named p a) }))
    ∧ Completes .opticalIdleCodeword s (fun t => t = s)
    ∧ (s.up.phase = 4 → p < 48 → c < 64 →
      ((s.lane p c).failed = false → Completes .opticalTrainingCodeword s (fun t =>
        t.lane p c = { s.lane p c with locked := true, serial := s.arg.v, far := i }))
      ∧ ((s.lane p c).locked = false → Completes .laneLockTimeout s (fun t =>
        t.lane p c = { s.lane p c with failed := true })))
    ∧ (p < 48 → s.linkLive (14544 + p) = true → Completes .opticalSignalLoss s (fun t =>
        (Sparse.get t.links (14544 + p)).cond = 15 ∧ (Sparse.get t.links (14544 + p)).rate = 0))

/-- **The eviction of the blade.** R350 to R353: a request in a ready panel begins step 1; with no rotation step left the
checkpoints are due, and with every tile at rest the sending begins, unit by unit, each through the live port that has sent the
least of its share by the rates, a region's emergency pausing its own, which others pass (log entry 77); once everything is sent and the fabric is drained the latch may open, and not before; an abort ends it; the target is written. -/
def Rules.BladeEviction : Prop :=
  ∀ (s : State),
    (s.up.phase = 7 → s.evicting = false → Completes .evictionRequest s (fun t =>
      t.ev.step = 1 ∧ t.ev.since = s.time ∧ t.rel.rotStop = true ∧ t.vts = s.vts))
    ∧ (s.ev.step = 1 → (∀ e ∈ s.rel.rotations, e.2 = none) → Completes .evictionFrozen s (fun t =>
      t.ev.step = 2 ∧ ∀ k ∈ s.evKeys, (t.tile k).ckDue = true))
    ∧ (s.ev.step = 2 → (∀ k ∈ s.evKeys, s.evAtRest k = true) → Completes .evictionFrozen s (fun t =>
      t.ev.step = 3 ∧ t.ev.todo = s.evUnits ∧ t.vts = s.vts))
    ∧ (s.ev.step = 3 →
      (∀ x (rate : Nat → Nat), s.arg.c = 1 → s.livePorts ≠ [] → rate = (fun p => (s.opticalLink p).rate.toNat) →
        (∀ p ∈ s.livePorts, 0 < rate p) →
        s.ev.todo.find? (fun x => !(s.region (regionOf (s.tile x.1).ptile)).emergency) = some x →
        Completes .evictionSendDone s (fun t => ∃ p ∈ s.livePorts,
          (∀ p' ∈ s.livePorts, s.ev.sentBy p * rate p' ≤ s.ev.sentBy p' * rate p)
          ∧ t = { s with ev := { s.ev with
              todo := s.ev.todo.erase x, sent := s.ev.sent ++ [(p, s.unitBytes x)] } }))
      ∧ (s.arg.c = 1 → (∀ x ∈ s.ev.todo, (s.region (regionOf (s.tile x.1).ptile)).emergency = true) →
        Completes .evictionSendDone s (fun t => t = s))
      ∧ (s.arg.c ≠ 1 → s.ev.todo = [] → s.livePorts ≠ [] →
        Completes .evictionSendDone s (fun t => t = { s with ev := { s.ev with step := 4 } })))
    ∧ (s.ev.step = 4 → s.heldRoutes = [] → s.farOut = [] →
      (∀ v ∈ s.vts, ∀ c ∈ v.2.im.copies, c.2.sent = []) →
      Completes .fabricDrained s (fun t => t.ev.step = 5 ∧ t.ev.safe = true ∧ t.health.eeseq = s.health.eeseq + 1))
    ∧ (s.evicting = true → s.ev.latchOpen = false → Completes .evictionAbort s (fun t =>
      t.ev.step = 6 ∧ t.ev.safe = false ∧ t.rel.rotStop = false))
    ∧ ((s.ev.safe = true ∨ s.ev.supplyAbsent = true) → Completes .bladeUnlatch s (fun t =>
      t = { s with ev := { s.ev with latchOpen := true } }))
    ∧ (s.ev.safe = false → s.ev.supplyAbsent = false → exec .bladeUnlatch s = .next s)
    ∧ (s.health.supplyOut = true → 60000000000 ≤ s.health.absentNs + (s.time.toNat - s.health.supplySince.toNat) →
      Completes .supplyAbsent60s s (fun t => t = { s with ev := { s.ev with supplyAbsent := true } }))
    ∧ Completes .evictionTargetWrite s (fun t => t.ev.serial = (if s.arg.ok then s.arg.v else s.ev.serial)
        ∧ t.ev.ports = (if s.arg.ok then s.ev.ports else s.arg.v.setWidth 48) ∧ t.vts = s.vts)

/-- **Links, ports and the eviction of the blade.** What a codeword is, which unit and port go next, and when a link is worse are
the model's readings or choices (log entries 76, 77, 78). -/
def Obligations.LinksPortsAndBlade : Prop := Rules.LinksAndPorts ∧ Rules.BladeEviction

/-- The registers of BAR0 that hold what is written to their RW fields, with those fields: bring-up, time and resets (R297,
R305, R307), the queue blocks (R308), the window's selection (R313), partition change and receipts (R317, R325), and
reliability (R327). -/
def Rules.registers : List (Nat × Word) :=
  [(0x10, ~~~0x3F), (0x18, 0xFFFFFFFF), (0x40, 3), (0x48, BitVec.allOnes 64), (0x60, 0x3F), (0x70, 0x3F)]
    ++ (List.range 48).flatMap (fun q => [(0x10000 + 256 * q, ~~~0x3F), (0x10008 + 256 * q, ~~~0xF),
      (0x10010 + 256 * q, 0x1FFFFFFFF), (0x10028 + 256 * q, 0xFFFFFFFF), (0x10030 + 256 * q, ~~~0x3F),
      (0x10038 + 256 * q, ~~~0x3F), (0x10048 + 256 * q, BitVec.allOnes 64)])
    ++ [(0x200000, 0x0FFFFFFF), (0x401000, 0xFFFFFFFFFFFF), (0x401008, 0xFFFF), (0x401010, ~~~0x3F),
      (0x401018, BitVec.allOnes 64), (0x402008, BitVec.allOnes 64), (0x800000, BitVec.allOnes 64), (0x800008, 0xFFFFFFFF),
      (0x800010, BitVec.allOnes 64), (0x800018, 0xFFFFFFFF0000FF01), (0x800020, 0xFFFFFFFF), (0x800028, ~~~0x3F),
      (0x800030, 0x1F), (0x800040, 0xFFFFFFFF)]

/-- A write of a register takes effect as the tables say and starts nothing: no change of partitions is in progress, the ring
and the queue that it configures are empty and idle, and no go bit is 1. -/
def Rules.plainWrite (s : State) (o : Nat) (v : Word) : Prop :=
  (0x400000 ≤ o → o < 0x402000 → s.ten.changing = false)
    ∧ (∀ q, q < 48 →
      (o = 0x10010 + 256 * q → (Sparse.get s.queues q).idle = true ∧ (Sparse.get s.queues q).ringEmpty 0 = true
        ∧ (Sparse.get s.queues q).ringEmpty 1 = true)
      ∧ (o = 0x10030 + 256 * q → (Sparse.get s.queues q).ringEmpty 0 = true)
      ∧ (o = 0x10038 + 256 * q → (Sparse.get s.queues q).ringEmpty 1 = true))
    ∧ ((o = 0x60 ∨ o = 0x70) → v.getLsbD 8 = false) ∧ (o = 0x401008 → v.getLsbD 16 = false)

/-- **Registers.** R5, R297, R303 to R305, R307, R308, R313, R317, R325, R327, R354, R357, R359: over the host link a write of 8
bytes, or of 4 to either half, the other half kept (log entry 100), of a register of BAR0 leaves its RW fields as written, its
other fields zero, and every other such register, the vtiles and their memory as they were; in D3hot and over no link there is
none (log entry 102); a read of 4 bytes gives the half at its address; a read-only register ignores a write; refused is cleared
by writing 1; a virtual function shows and writes the fault ring of its tenant's slot; the Idhan bus has the eviction's target
and two selections. -/
def Rules.Registers : Prop :=
  ∀ (s : State), (∀ (o : Nat) (v : Word) (mask : Word), s.barOpen = true ∨ (o < 0x30 ∧ s.up.reset = false ∧ s.up.hostLink = true ∧ s.up.d3 = false) →
      v = Rules.written (s.readReg .pf o) s.arg.ok (s.arg.n / 4 % 2) s.arg.v →
      s.arg.space = .pf → s.arg.n = o ∨ (s.arg.ok = true ∧ s.arg.n = o + 4) → (o, mask) ∈ Rules.registers →
      Rules.plainWrite s o v →
      Completes .registerWrite s (fun t => t.readReg .pf o = v &&& mask
        ∧ (∀ x, x ∈ Rules.registers → x.1 ≠ o → t.readReg .pf x.1 = s.readReg .pf x.1)
        ∧ t.vts = s.vts ∧ t.hbm = s.hbm ∧ t.hostMem = s.hostMem))
    ∧ (∀ b o, (b = .pf ∨ ∃ i, b = .vf i) → o % 8 = 0 →
      s.readAccess b true o = (s.readAccess b false o) &&& 0xFFFFFFFF
        ∧ s.readAccess b true (o + 4) = (s.readAccess b false o) >>> 32)
    ∧ ((s.up.hostLink = false ∨ s.up.d3 = true) → s.arg.space = .pf → Completes .registerWrite s (fun t => t = s))
    ∧ (s.arg.space = .pf → s.arg.n ∈ [0x00, 0x08, 0x28, 0x68, 0x78, 0x400000, 0x401020, 0x402000, 0x402010, 0x800038] →
      Completes .registerWrite s (fun t => t = s))
    ∧ (s.barOpen = true → s.arg.space = .pf → s.arg.n = 0x200008 → s.arg.ok = false → Completes .registerWrite s (fun t =>
      t = { s with ten := { s.ten with twrefused := s.ten.twrefused && !s.arg.v.getLsbD 0 } }))
    ∧ (∀ i slot, s.barOpen = true → s.arg.space = .vf i → 1 ≤ i → i ≤ 15 → s.up.vfs = true → s.arg.ok = false → s.arg.n % 8 = 0 →
      s.vfSlot i s.arg.n = some slot → (Sparse.get s.queues (s.arg.n / 64)).ringEmpty slot = true →
      ∀ mask, (s.arg.n % 64, mask) ∈ [(0x00, (~~~0x3F : Word)), (0x08, 0xFF), (0x18, 0xFFFFFFFF)] →
        Completes .registerWrite s (fun t => t.readReg (.vf i) s.arg.n = s.arg.v &&& mask ∧ t.vts = s.vts))
    ∧ (∀ mask, s.arg.space = .idhan → (s.arg.n, mask) ∈ [(0x101, (0xFFFFFFFFFFFF : Word)), (0x102, BitVec.allOnes 64),
        (0x201, BitVec.allOnes 64), (0x231, BitVec.allOnes 64)] →
      Completes .registerWrite s (fun t => t.readReg .idhan s.arg.n = s.arg.v &&& mask ∧ t.vts = s.vts))

/-- **Records.** R357, R359, R360: the counters are saved once a minute; an entry of the retirement log is programmed byte by byte
in its slot, and committed at the next number, the summary rewritten; one whose vtile has still to move waits. -/
def Rules.Records : Prop :=
  ∀ (s : State),
    (60000000000 ≤ s.time.toNat - s.health.saveTime.toNat → Completes .nvCounterSave s (fun t =>
        t.health.saveTime = s.time ∧ ∀ p, p < 6144 → (Sparse.get t.health.nv p).uce = (s.ptile p).uce
          ∧ (Sparse.get t.health.nv p).rot = (s.ptile p).rot ∧ (Sparse.get t.health.nv p).scrp = (s.ptile p).scrp))
    ∧ (∀ r l, s.health.pending = r :: l →
      (r.waits = false → s.arg.c ≠ 1 → Completes .retirementLogCommit s (fun t => t.health.pending = l
        ∧ Sparse.get t.health.log s.health.logCount = some r ∧ t.health.logCount = s.health.logCount + 1
        ∧ t.health.eeseq = s.health.eeseq + 1))
      ∧ (r.waits = false → s.arg.c = 1 → Completes .retirementLogCommit s (fun t => t = { s with health := { s.health with
        programmed := max s.health.programmed (min s.arg.j 0x7C) } }))
      ∧ (r.waits = true → Completes .retirementLogCommit s (fun t => t = s)))

/-- **Registers and records.** The half that a write of 4 bytes leaves, and the closed BARs of D3hot and of no link, are the
model's readings (log entries 100, 102). -/
def Obligations.RegistersAndRecords : Prop := Rules.Registers ∧ Rules.Records

/-! The machine as a whole. -/

/-- **Reset.** R297, R298, R305, R315, R327, R86, R60: right after power-on bring-up is in phase 1, every region is off, no
partition, no vtile and no receipt exist, the intervals and policies stand at the values of their tables, and the watchdog
and deadlock thresholds of a vtile's words at theirs. What the manual gives no value at reset is the model's: log entries 2
and 11. -/
def Obligations.ResetState : Prop :=
  State.reset.up.phase = 1 ∧ State.reset.up.err = 0 ∧ State.reset.up.ptmint = 10000000 ∧ State.reset.up.tset = false
    ∧ (∀ r, (State.reset.region r).power = .off) ∧ (∀ q, (State.reset.part q).state = 0)
    ∧ (∀ k, State.reset.tile k = {}) ∧ State.reset.receipts = [] ∧ State.reset.ten.made = 0
    ∧ State.reset.rel.ckint = 10000000 ∧ State.reset.rel.ckmin = 50000 ∧ State.reset.rel.rotint = 2000000000
    ∧ State.reset.rel.win = 3600 ∧ State.reset.rel.ce = 3 ∧ State.reset.rel.scr = true ∧ State.reset.rel.mgnlim = 30000
    ∧ State.reset.ev.safe = false ∧ ({} : VTile).wdl = 50000000 ∧ ({} : Proc).dlthr = 0x00100000
    ∧ (∀ k q, (State.reset.procAt k q).st = .empty)

/-- **The canonical form at reset.** R61, R73: the memories outside the tiles (HBM, host memory, peer memory) and the table of
vtiles are canonical right after power-on, and no replay is under way. The canonical form is the model's: log entry 2. -/
def Obligations.CanonicalAtReset : Prop := Canonical State.reset

/-- **Every step keeps the canonical form of the memories outside the tiles.** R61, R66, R73, R334: from every state whose HBM, host
memory, peer memory and table of vtiles are canonical and in which no replay is in the middle of an event, a step goes to such
a state, so that equal such memories are equal data; nothing is said of the memories in a tile. The canonical form is the
model's: log entry 2. -/
def Obligations.StepKeepsCanonical : Prop :=
  ∀ (s t : State), Canonical s → step s = .next t → Canonical t

/-- **A step runs the decoded instruction.** R29, R30, R133, R137, R152: at a tile's turn on a pipe the context chosen executes
what the word at its pc decodes to, the word being the 4 bytes there, lowest first; a word that decodes to nothing raises
ILLEGAL; the issue is booked, and nothing else of any context or memory has changed before the instruction takes effect, but
for a scalar access on the A pipe while a vector access of the same tc is at hand, of which events may come first (R74, log
entry 115): they leave the context that issues as it was but for its pumps; at
the fabric's turn package time moves on, deadlines that have passed end their operations (R46), and the oldest input takes
its effect, or with none the event that the fabric brings about; after the two pipes a tile's tc ends. Every step goes on
(R8). The turns, the inputs and the fabric's choices are the model's: log entry 1. -/
def Obligations.StepRunsTheDecodedInstruction : Prop :=
  (∀ (s : State) (k q : Nat) (a : Bool), s.task = .issue k a → (s.tile k).choose a = some q →
    (∀ i, decode ((s.tile k).fetch q) = .ok i → step s = exec i ((s.startIssue k q a).overtaken i)
      ∧ ((a = false ∨ (s.startIssue k q a).accesses i = false ∨ (s.startIssue k q a).peer = none) →
        step s = exec i (s.startIssue k q a))
      ∧ ((s.tile k).replay = none →
        ((s.startIssue k q a).overtaken i).proc.butPumps = (s.startIssue k q a).proc.butPumps))
    ∧ (∀ e, decode ((s.tile k).fetch q) = .error e →
      step s = exec (.illegalEncoding ((s.tile k).fetch q)) (s.startIssue k q a))
    ∧ (q ≠ 8 → ((s.tile k).fetch q).toNat = ofBytes (Memory.read (s.tile k).im.code ((s.tile k).proc q).pc.toNat 4))
    ∧ (s.startIssue k q a).cur = { vt := k, who := q } ∧ (s.startIssue k q a).turn = s.turn.after
    ∧ (∀ j, j ≠ k → (s.startIssue k q a).tile j = s.tile j)
    ∧ (∀ r, { (s.startIssue k q a).procAt k r with ageing := (s.procAt k r).ageing, aged := (s.procAt k r).aged }
        = s.procAt k r)
    ∧ SameBytes s (s.startIssue k q a))
  ∧ (∀ (s : State) (k : Nat) (a : Bool), s.task = .issue k a → (s.tile k).choose a = none →
    step s = .next (s.idleIssue k a))
  ∧ (∀ (s : State) (i : Instr) (a : EvArgs) (l : List (Instr × EvArgs)), s.task = .fabric → s.inputs = (i, a) :: l →
    isEvent i = true → step s = exec i (s.startEvent a) ∧ (s.startEvent a).arg = a ∧ (s.startEvent a).inputs = l)
  ∧ (∀ (s : State), s.task = .fabric → s.inputs = [] →
    (∀ i a, s.chosen = some (i, a) → step s = exec i (s.startEvent a)) ∧ (s.chosen = none → step s = .next s.idleTurn))
  ∧ (∀ (s : State) (a : EvArgs), (∀ k q, s.fabricTurn.mayExpire k q = false) →
    s.startEvent a = { State.outsideWrites { s.fabricTurn with inputs := s.inputs.drop 1 } a.outside with arg := a }
    ∧ (s.startEvent a).vts = s.vts ∧ (a.outside = [] → (s.startEvent a).hbm = s.hbm))
  ∧ (∀ (s : State) (k : Nat), s.task = .tcEnd k → step s = .next (s.tcEnd k).pass)
  ∧ ∀ s : State, Safe s

/-- **Who issues.** R29 to R31, R89: on a pipe the monitor issues whenever it has an instruction for it; else the process that
issues is READY with its next word for that pipe, has not issued in the tc, and its effective priority is the highest of
those that can; among equals it comes first in round-robin order after the last to issue there. Nobody issues on a pipe
for which nobody can. On the B pipe the context whose vector access has begun in the tc has been chosen already (log entry
115). -/
def Obligations.IssueChoice : Prop :=
  ∀ (t : VTile) (a : Bool), t.runs = true → t.replayHolds a = false →
    (∀ h, a = false → t.ahead = some h → t.choose a = some h.who)
    ∧ ((a = true ∨ t.ahead = none) → t.monitorIssues a = true → t.choose a = some 8)
    ∧ ((a = true ∨ t.ahead = none) → t.monitorIssues a = false →
      (∀ q, t.choose a = some q → q < 8 ∧ (t.proc q).st = .ready ∧ t.onPipe q a = true ∧ t.hasIssued q = false
        ∧ t.canIssue a q = true
        ∧ ∀ p, p < 8 → t.canIssue a p = true → t.hasIssued p = false →
          t.effPrio p ≤ t.effPrio q
          ∧ (t.effPrio p = t.effPrio q → (q + 7 - (if a then t.im.rrA else t.im.rrB).toNat) % 8
            ≤ (p + 7 - (if a then t.im.rrA else t.im.rrB).toNat) % 8))
      ∧ (t.choose a = none → ∀ p, p < 8 → t.canIssue a p = true → t.hasIssued p = true))

/-- **yield.** R32: yield is a word for the A pipe; it changes nothing and goes on; an issue of a process makes it the last
of its pipe and its ageing 0; and the last to issue on a pipe issues next there only when every other process that could
has a lower effective priority. -/
def Obligations.YieldGoesBehind : Prop :=
  (∀ w, encode .yield = some w → onAPipe w = true)
  ∧ (∀ s : State, s.inMonitor = false → Completes .yield s (fun t => GoesTo s t (s.proc.pc + 4)))
  ∧ (∀ (s : State) (k q : Nat) (a : Bool), q < 8 →
    (if a then ((s.startIssue k q a).tile k).im.rrA else ((s.startIssue k q a).tile k).im.rrB) = BitVec.ofNat 3 q
    ∧ ((s.startIssue k q a).procAt k q).ageing = 0 ∧ ((s.startIssue k q a).procAt k q).aged = false)
  ∧ ∀ (t : VTile) (a : Bool) (q : Nat), (a = true ∨ t.ahead = none) → q < 8 → (if a then t.im.rrA else t.im.rrB) = BitVec.ofNat 3 q →
    t.choose a = some q → ∀ p, p < 8 → p ≠ q → t.canIssue a p = true → t.hasIssued p = false →
      t.effPrio p < t.effPrio q

/-- **Instructions stay on their tile.** R9, R61, R68, R69, R73: an instruction of any context changes no vtile but its own, no
byte of HBM but those that its own translation names with W, or that a block landing at an end of its vtile fills (R41), or
an element or a vector store of its vtile that has begun to be written (R71, R74, log entries 3 and 115);
nothing outside the panel, and no other record or register of it: of the networks and queues only that its own network ends
and its commands complete (R28); what it says to others it says by messages of its own vtile. A monitor that faults tells
the driver with vector 2, the model's choice (log entry 39); no replay is in the middle of an event, as between any two
steps. -/
def Obligations.InstructionsStayOnTheirTile : Prop :=
  ∀ (s t : State) (i : Instr), s.presenting = false → (encode i).isSome = true ∨ (∃ w, i = .illegalEncoding w) →
    exec i s = .next t → StaysOnTile s t

/-- slotctl has one word, with the action in gb: its freeze and its kill are that word (log entry 6). -/
def Rules.canonical : Instr → Instr
  | .slotctlFreeze a b => .slotctlThaw a b
  | .slotctlKill a b => .slotctlThaw a b
  | i => i

/-- **Decoding undoes encoding.** R134 to R152: for every well-formed instruction, with every operand at every value that
its encoding admits, the word that the encoding gives decodes to that instruction. -/
def Obligations.EncodingRoundTrip : Prop :=
  ∀ (i : Instr) (w : BitVec 32), i.wf = true → encode i = some w → decode w = .ok (Rules.canonical i)

/-- **Every word has one meaning.** R137, R152: a word that decodes to an instruction is well-formed and is that
instruction's own word; so no field is ignored, and no two words mean the same instruction. -/
def Obligations.EveryWordHasOneMeaning : Prop :=
  ∀ (w : BitVec 32) (i : Instr), decode w = .ok i → i.wf = true ∧ encode i = some w

/-- **Words of the manual.** R134 to R151: words written out field by field decode to the instructions they stand for. -/
def Obligations.SpecWordsDecode : Prop :=
  decode (0x00#7 ++ 5#5 ++ 6#5 ++ 7#5 ++ 1#10) = .ok (.add 5 6 7)
    ∧ decode (0x02#7 ++ 5#5 ++ 6#5 ++ 0x7FFF#15) = .ok (.addi 5 6 (-1))
    ∧ decode (0x10#7 ++ 5#5 ++ 6#5 ++ 3#15) = .ok (.beq 5 6 3)
    ∧ decode 0xDC000000 = .ok .exit
    ∧ decode 0xC2804480 = .ok (.recv 8 4 9)
    ∧ decode 0xFE000000 = .error .badMajor
end

