-- ==== Sys2Proof/Laws/Sparse.lean ====
section
/-! SUPPORT. Tables: what a table holds after each operation, and that every operation keeps the canonical form. -/

namespace Sys2Proof.Machine

theorem Sparse.get_nil {α : Type} [Inhabited α] (i : Nat) : Sparse.get ([] : Sparse α) i = default := rfl

theorem Sparse.get_put {α : Type} [Inhabited α] (m : Sparse α) (i j : Nat) (v : α) :
    Sparse.get (Sparse.put m i v) j = if j = i then v else Sparse.get m j := by
  induction m with
  | nil => by_cases h : j = i <;> simp [Sparse.put, Sparse.get, h, Ne.symm]
  | cons p r ih =>
    obtain ⟨k, w⟩ := p
    simp only [Sparse.put]
    split
    · by_cases h : j = i
      · simp [Sparse.get, h]
      · simp [Sparse.get, h, Ne.symm h]
    · split
      · subst_vars
        by_cases h : j = k
        · simp [Sparse.get, h]
        · simp [Sparse.get, h, Ne.symm h]
      · simp only [Sparse.get, ih]
        by_cases h : k = j
        · subst h; simp; omega
        · simp [h]

theorem Sparse.get_drop {α : Type} [Inhabited α] (m : Sparse α) (i j : Nat) :
    Sparse.get (Sparse.drop m i) j = if j = i then default else Sparse.get m j := by
  induction m with
  | nil => simp [Sparse.drop, Sparse.get]
  | cons p r ih =>
    obtain ⟨k, w⟩ := p
    simp only [Sparse.drop, List.filter] at ih ⊢
    by_cases h : k = i
    · subst h
      simp only [bne_self_eq_false, ih, Sparse.get]
      by_cases h2 : j = k
      · simp [h2]
      · simp [h2, Ne.symm h2]
    · simp only [bne_iff_ne.mpr h, Sparse.get, ih]
      by_cases h2 : k = j
      · subst h2; simp [h]
      · simp [h2]

/-- A table after one value is replaced. -/
theorem Sparse.get_set {α : Type} [Inhabited α] [DecidableEq α] (m : Sparse α) (i j : Nat) (v : α) :
    Sparse.get (Sparse.set m i v) j = if j = i then v else Sparse.get m j := by
  unfold Sparse.set
  split
  · rw [Sparse.get_drop]; split <;> simp_all
  · rw [Sparse.get_put]

@[simp] theorem Sparse.get_set_same {α : Type} [Inhabited α] [DecidableEq α] (m : Sparse α) (i : Nat) (v : α) :
    Sparse.get (Sparse.set m i v) i = v := by simp [Sparse.get_set]

theorem Sparse.get_set_other {α : Type} [Inhabited α] [DecidableEq α] (m : Sparse α) {i j : Nat} (v : α) (h : j ≠ i) :
    Sparse.get (Sparse.set m i v) j = Sparse.get m j := by simp [Sparse.get_set, h]

theorem Sparse.get_upd {α : Type} [Inhabited α] [DecidableEq α] (m : Sparse α) (i j : Nat) (f : α → α) :
    Sparse.get (Sparse.upd m i f) j = if j = i then f (Sparse.get m i) else Sparse.get m j := by
  simp [Sparse.upd, Sparse.get_set]

@[simp] theorem Sparse.get_upd_same {α : Type} [Inhabited α] [DecidableEq α] (m : Sparse α) (i : Nat) (f : α → α) :
    Sparse.get (Sparse.upd m i f) i = f (Sparse.get m i) := by simp [Sparse.get_upd]

theorem Sparse.get_upd_other {α : Type} [Inhabited α] [DecidableEq α] (m : Sparse α) {i j : Nat} (f : α → α) (h : j ≠ i) :
    Sparse.get (Sparse.upd m i f) j = Sparse.get m j := by simp [Sparse.get_upd, h]

/-! The canonical form. -/

theorem Sparse.rising_mono {α : Type} {lo lo' : Nat} {m : Sparse α} (h : Sparse.rising lo m = true) (hl : lo' ≤ lo) :
    Sparse.rising lo' m = true := by
  cases m with
  | nil => rfl
  | cons p r =>
    simp only [Sparse.rising, Bool.and_eq_true, decide_eq_true_eq] at h ⊢
    exact ⟨Nat.le_trans hl h.1, h.2⟩

theorem Sparse.rising_put {α : Type} {lo : Nat} {m : Sparse α} {i : Nat} {v : α} (h : Sparse.rising lo m = true)
    (hi : lo ≤ i) : Sparse.rising lo (Sparse.put m i v) = true := by
  induction m generalizing lo with
  | nil => simp [Sparse.put, Sparse.rising, hi]
  | cons p r ih =>
    obtain ⟨k, w⟩ := p
    simp only [Sparse.rising, Bool.and_eq_true, decide_eq_true_eq] at h
    simp only [Sparse.put]
    split
    · simp only [Sparse.rising, Bool.and_eq_true, decide_eq_true_eq]
      exact ⟨hi, by omega, h.2⟩
    · split
      · subst_vars
        simp only [Sparse.rising, Bool.and_eq_true, decide_eq_true_eq]
        exact h
      · simp only [Sparse.rising, Bool.and_eq_true, decide_eq_true_eq]
        exact ⟨h.1, ih h.2 (by omega)⟩

theorem Sparse.rising_filter {α : Type} {lo : Nat} {m : Sparse α} (p : Nat × α → Bool) (h : Sparse.rising lo m = true) :
    Sparse.rising lo (m.filter p) = true := by
  induction m generalizing lo with
  | nil => rfl
  | cons e r ih =>
    obtain ⟨k, w⟩ := e
    simp only [Sparse.rising, Bool.and_eq_true, decide_eq_true_eq] at h
    simp only [List.filter]
    split
    · simp only [Sparse.rising, Bool.and_eq_true, decide_eq_true_eq]
      exact ⟨h.1, ih h.2⟩
    · exact Sparse.rising_mono (ih h.2) (by omega)

theorem Sparse.mem_put {α : Type} {m : Sparse α} {i : Nat} {v : α} {e : Nat × α} (h : e ∈ Sparse.put m i v) :
    e = (i, v) ∨ e ∈ m := by
  induction m with
  | nil => simpa [Sparse.put] using h
  | cons p r ih =>
    obtain ⟨k, w⟩ := p
    simp only [Sparse.put] at h
    split at h
    · simpa using h
    · split at h
      · simp only [List.mem_cons] at h ⊢
        rcases h with h | h
        · exact .inl h
        · exact .inr (.inr h)
      · simp only [List.mem_cons] at h ⊢
        rcases h with h | h
        · exact .inr (.inl h)
        · rcases ih h with h | h
          · exact .inl h
          · exact .inr (.inr h)

theorem Sparse.wf_set {α : Type} [Inhabited α] [DecidableEq α] {m : Sparse α} (i : Nat) (v : α) (h : Sparse.wf m = true) :
    Sparse.wf (Sparse.set m i v) = true := by
  simp only [Sparse.wf, Bool.and_eq_true, List.all_eq_true, decide_eq_true_eq] at h ⊢
  unfold Sparse.set
  split
  · exact ⟨Sparse.rising_filter _ h.1, fun e he => h.2 e ((List.mem_filter.mp he).1)⟩
  · refine ⟨Sparse.rising_put h.1 (Nat.zero_le _), fun e he => ?_⟩
    rcases Sparse.mem_put he with rfl | he
    · assumption
    · exact h.2 e he

theorem Sparse.wf_upd {α : Type} [Inhabited α] [DecidableEq α] {m : Sparse α} (i : Nat) (f : α → α) (h : Sparse.wf m = true) :
    Sparse.wf (Sparse.upd m i f) = true := Sparse.wf_set _ _ h

theorem Sparse.wf_filter {α : Type} [Inhabited α] [DecidableEq α] {m : Sparse α} (p : Nat × α → Bool)
    (h : Sparse.wf m = true) : Sparse.wf (m.filter p) = true := by
  simp only [Sparse.wf, Bool.and_eq_true, List.all_eq_true, decide_eq_true_eq] at h ⊢
  exact ⟨Sparse.rising_filter _ h.1, fun e he => h.2 e ((List.mem_filter.mp he).1)⟩

theorem Memory.wf_write {m : Memory} (a : Nat) (l : List Byte) (h : Memory.wf m = true) :
    Memory.wf (Memory.write m a l) = true := by
  induction l generalizing m a with
  | nil => exact h
  | cons b r ih => exact ih (a + 1) (Sparse.wf_set a b h)

theorem Memory.wf_clear {m : Memory} (a n : Nat) (h : Memory.wf m = true) : Memory.wf (Memory.clear m a n) = true :=
  Sparse.wf_filter _ h

/-! Equal contents mean equal tables. -/

theorem Sparse.get_below {α : Type} [Inhabited α] {lo i : Nat} {m : Sparse α} (h : Sparse.rising lo m = true) (hi : i < lo) :
    Sparse.get m i = default := by
  induction m generalizing lo with
  | nil => rfl
  | cons p r ih =>
    obtain ⟨k, w⟩ := p
    simp only [Sparse.rising, Bool.and_eq_true, decide_eq_true_eq] at h
    simp only [Sparse.get]
    rw [if_neg (by omega)]
    exact ih h.2 (by omega)

theorem Sparse.ext_aux {α : Type} [Inhabited α] [DecidableEq α] {lo : Nat} {m n : Sparse α}
    (hm : Sparse.rising lo m = true) (hn : Sparse.rising lo n = true)
    (dm : ∀ e ∈ m, e.2 ≠ default) (dn : ∀ e ∈ n, e.2 ≠ default)
    (h : ∀ i, Sparse.get m i = Sparse.get n i) : m = n := by
  induction m generalizing lo n with
  | nil =>
    cases n with
    | nil => rfl
    | cons p r =>
      have := h p.1
      simp only [Sparse.get, if_true] at this
      exact absurd this.symm (dn p List.mem_cons_self)
  | cons p r ih =>
    cases n with
    | nil =>
      have := h p.1
      simp only [Sparse.get, if_true] at this
      exact absurd this (dm p List.mem_cons_self)
    | cons p' r' =>
      obtain ⟨k, w⟩ := p
      obtain ⟨k', w'⟩ := p'
      simp only [Sparse.rising, Bool.and_eq_true, decide_eq_true_eq] at hm hn
      have hk : k = k' := by
        rcases Nat.lt_trichotomy k k' with hlt | heq | hgt
        · have := h k
          simp only [Sparse.get, if_true] at this
          rw [if_neg (by omega), Sparse.get_below hn.2 (by omega)] at this
          exact absurd this (dm (k, w) List.mem_cons_self)
        · exact heq
        · have := h k'
          simp only [Sparse.get, if_true] at this
          rw [if_neg (by omega), Sparse.get_below hm.2 (by omega)] at this
          exact absurd this.symm (dn (k', w') List.mem_cons_self)
      subst hk
      have hw := h k
      simp only [Sparse.get, if_true] at hw
      subst hw
      congr 1
      refine ih hm.2 hn.2 (fun e he => dm e (List.mem_cons_of_mem _ he)) (fun e he => dn e (List.mem_cons_of_mem _ he)) (fun i => ?_)
      have := h i
      simp only [Sparse.get] at this
      by_cases hi : k = i
      · subst hi
        rw [Sparse.get_below hm.2 (by omega), Sparse.get_below hn.2 (by omega)]
      · simpa [hi] using this

/-- Canonical tables with equal contents are equal. -/
theorem Sparse.ext_of_wf {α : Type} [Inhabited α] [DecidableEq α] {m n : Sparse α} (hm : Sparse.wf m = true)
    (hn : Sparse.wf n = true) (h : ∀ i, Sparse.get m i = Sparse.get n i) : m = n := by
  simp only [Sparse.wf, Bool.and_eq_true, List.all_eq_true, decide_eq_true_eq] at hm hn
  exact Sparse.ext_aux hm.1 hn.1 hm.2 hn.2 h

/-! Bytes of a memory. -/

theorem Memory.get_write (m : Memory) (a : Nat) (l : List Byte) (j : Nat) :
    Sparse.get (Memory.write m a l) j = if a ≤ j ∧ j < a + l.length then l.getD (j - a) 0 else Sparse.get m j := by
  induction l generalizing m a with
  | nil => simp [Memory.write] <;> omega
  | cons b r ih =>
    rw [Memory.write, ih, Sparse.get_set]
    by_cases h1 : j = a
    · subst h1
      simp <;> omega
    · by_cases h2 : a + 1 ≤ j ∧ j < a + 1 + r.length
      · have e : j - a = (j - (a + 1)) + 1 := by omega
        rw [if_pos h2, if_pos (by simp; omega), e]
        simp
      · rw [if_neg h2, if_neg h1, if_neg (by simp; omega)]

/-- A byte outside a write reads as before. -/
theorem Memory.get_write_outside (m : Memory) (a : Nat) (l : List Byte) {j : Nat} (h : j < a ∨ a + l.length ≤ j) :
    Sparse.get (Memory.write m a l) j = Sparse.get m j := by
  rw [Memory.get_write, if_neg (by omega)]

theorem Memory.length_read (m : Memory) (a n : Nat) : (Memory.read m a n).length = n := by
  induction n generalizing a with
  | zero => rfl
  | succ n ih => simp [Memory.read, ih]

/-- Reading in two parts. -/
theorem Memory.read_append (m : Memory) (a n k : Nat) :
    Memory.read m a (n + k) = Memory.read m a n ++ Memory.read m (a + n) k := by
  induction n generalizing a with
  | zero => simp [Memory.read]
  | succ n ih =>
    rw [Nat.succ_add]
    simp only [Memory.read, ih, List.cons_append]
    rw [show a + 1 + n = a + (n + 1) by omega]

/-- Above everything that is listed a memory reads as zero. -/
theorem Memory.read_above (m : Memory) (a n : Nat) (h : ∀ e ∈ m, e.1 < a) : Memory.read m a n = List.replicate n 0 := by
  have z : ∀ (m : Memory) (a : Nat), (∀ e ∈ m, e.1 < a) → Sparse.get m a = 0 := by
    intro m a h
    induction m with
    | nil => rfl
    | cons e r ih =>
      have := h e (by simp)
      simp only [Sparse.get, if_neg (by omega : e.1 ≠ a)]
      exact ih (fun x hx => h x (by simp [hx]))
  induction n generalizing a with
  | zero => rfl
  | succ n ih =>
    simp only [Memory.read, List.replicate_succ, z m a h]
    rw [ih (a + 1) (fun e he => by have := h e he; omega)]

/-- Reading back what was written. -/
theorem Memory.read_write_same (m : Memory) (a : Nat) (l : List Byte) :
    Memory.read (Memory.write m a l) a l.length = l := by
  apply List.ext_getElem
  · exact Memory.length_read _ _ _
  · intro n h1 h2
    have key : ∀ (m : Memory) (a n k : Nat) (h : n < (Memory.read m a k).length), (Memory.read m a k)[n] = Sparse.get m (a + n) := by
      intro m a n k
      induction k generalizing a n with
      | zero => intro h; simp [Memory.read] at h
      | succ k ih =>
        intro h
        cases n with
        | zero => simp [Memory.read]
        | succ n =>
          simp only [Memory.read, List.getElem_cons_succ]
          rw [ih]
          congr 1
          omega
    rw [key, Memory.get_write, if_pos ⟨by omega, by omega⟩]
    have : a + n - a = n := by omega
    rw [this]
    simp [h2]

@[simp] theorem length_toBytes (n v : Nat) : (toBytes n v).length = n := by
  induction n generalizing v with
  | zero => rfl
  | succ n ih => simp [toBytes, ih]

theorem ofBytes_toBytes (n v : Nat) : ofBytes (toBytes n v) = v % 256 ^ n := by
  induction n generalizing v with
  | zero => simp [toBytes, ofBytes, Nat.mod_one]
  | succ n ih =>
    have h : v % 256 ^ (n + 1) = v % 256 + 256 * (v / 256 % 256 ^ n) := by rw [Nat.pow_succ', Nat.mod_mul]
    rw [h]
    simp [toBytes, ofBytes, ih]

end Sys2Proof.Machine
end

