-- ==== Sys2Proof/Laws/State.lean ====
section
/-! SUPPORT. The fields of State after each update: one lemma a field an update. Generated by rule from the fields of
State and the updates' own field. -/

namespace Sys2Proof.Machine

@[simp] theorem State.updTile_cur (s : State) (k : Nat) (f : VTile → VTile) : (s.updTile k f).cur = s.cur := rfl
@[simp] theorem State.updTile_turn (s : State) (k : Nat) (f : VTile → VTile) : (s.updTile k f).turn = s.turn := rfl
@[simp] theorem State.updTile_count (s : State) (k : Nat) (f : VTile → VTile) : (s.updTile k f).count = s.count := rfl
@[simp] theorem State.updTile_inputs (s : State) (k : Nat) (f : VTile → VTile) : (s.updTile k f).inputs = s.inputs := rfl
@[simp] theorem State.updTile_arg (s : State) (k : Nat) (f : VTile → VTile) : (s.updTile k f).arg = s.arg := rfl
@[simp] theorem State.updTile_presenting (s : State) (k : Nat) (f : VTile → VTile) : (s.updTile k f).presenting = s.presenting := rfl
@[simp] theorem State.updTile_strays (s : State) (k : Nat) (f : VTile → VTile) : (s.updTile k f).strays = s.strays := rfl
@[simp] theorem State.updTile_time (s : State) (k : Nat) (f : VTile → VTile) : (s.updTile k f).time = s.time := rfl
@[simp] theorem State.updTile_msgs (s : State) (k : Nat) (f : VTile → VTile) : (s.updTile k f).msgs = s.msgs := rfl
@[simp] theorem State.updTile_farOut (s : State) (k : Nat) (f : VTile → VTile) : (s.updTile k f).farOut = s.farOut := rfl
@[simp] theorem State.updTile_acksOut (s : State) (k : Nat) (f : VTile → VTile) : (s.updTile k f).acksOut = s.acksOut := rfl
@[simp] theorem State.updTile_hbm (s : State) (k : Nat) (f : VTile → VTile) : (s.updTile k f).hbm = s.hbm := rfl
@[simp] theorem State.updTile_frameTen (s : State) (k : Nat) (f : VTile → VTile) : (s.updTile k f).frameTen = s.frameTen := rfl
@[simp] theorem State.updTile_hostMem (s : State) (k : Nat) (f : VTile → VTile) : (s.updTile k f).hostMem = s.hostMem := rfl
@[simp] theorem State.updTile_peerMem (s : State) (k : Nat) (f : VTile → VTile) : (s.updTile k f).peerMem = s.peerMem := rfl
@[simp] theorem State.updTile_nets (s : State) (k : Nat) (f : VTile → VTile) : (s.updTile k f).nets = s.nets := rfl
@[simp] theorem State.updTile_netCount (s : State) (k : Nat) (f : VTile → VTile) : (s.updTile k f).netCount = s.netCount := rfl
@[simp] theorem State.updTile_queues (s : State) (k : Nat) (f : VTile → VTile) : (s.updTile k f).queues = s.queues := rfl
@[simp] theorem State.updTile_parts (s : State) (k : Nat) (f : VTile → VTile) : (s.updTile k f).parts = s.parts := rfl
@[simp] theorem State.updTile_scrubs (s : State) (k : Nat) (f : VTile → VTile) : (s.updTile k f).scrubs = s.scrubs := rfl
@[simp] theorem State.updTile_receipts (s : State) (k : Nat) (f : VTile → VTile) : (s.updTile k f).receipts = s.receipts := rfl
@[simp] theorem State.updTile_regions (s : State) (k : Nat) (f : VTile → VTile) : (s.updTile k f).regions = s.regions := rfl
@[simp] theorem State.updTile_ptiles (s : State) (k : Nat) (f : VTile → VTile) : (s.updTile k f).ptiles = s.ptiles := rfl
@[simp] theorem State.updTile_links (s : State) (k : Nat) (f : VTile → VTile) : (s.updTile k f).links = s.links := rfl
@[simp] theorem State.updTile_linkGen (s : State) (k : Nat) (f : VTile → VTile) : (s.updTile k f).linkGen = s.linkGen := rfl
@[simp] theorem State.updTile_lanes (s : State) (k : Nat) (f : VTile → VTile) : (s.updTile k f).lanes = s.lanes := rfl
@[simp] theorem State.updTile_optPorts (s : State) (k : Nat) (f : VTile → VTile) : (s.updTile k f).optPorts = s.optPorts := rfl
@[simp] theorem State.updTile_up (s : State) (k : Nat) (f : VTile → VTile) : (s.updTile k f).up = s.up := rfl
@[simp] theorem State.updTile_ten (s : State) (k : Nat) (f : VTile → VTile) : (s.updTile k f).ten = s.ten := rfl
@[simp] theorem State.updTile_rel (s : State) (k : Nat) (f : VTile → VTile) : (s.updTile k f).rel = s.rel := rfl
@[simp] theorem State.updTile_ev (s : State) (k : Nat) (f : VTile → VTile) : (s.updTile k f).ev = s.ev := rfl
@[simp] theorem State.updTile_health (s : State) (k : Nat) (f : VTile → VTile) : (s.updTile k f).health = s.health := rfl
@[simp] theorem State.updTile_msix (s : State) (k : Nat) (f : VTile → VTile) : (s.updTile k f).msix = s.msix := rfl

@[simp] theorem State.updProcAt_cur (s : State) (k q : Nat) (f : Proc → Proc) : (s.updProcAt k q f).cur = s.cur := rfl
@[simp] theorem State.updProcAt_turn (s : State) (k q : Nat) (f : Proc → Proc) : (s.updProcAt k q f).turn = s.turn := rfl
@[simp] theorem State.updProcAt_count (s : State) (k q : Nat) (f : Proc → Proc) : (s.updProcAt k q f).count = s.count := rfl
@[simp] theorem State.updProcAt_inputs (s : State) (k q : Nat) (f : Proc → Proc) : (s.updProcAt k q f).inputs = s.inputs := rfl
@[simp] theorem State.updProcAt_arg (s : State) (k q : Nat) (f : Proc → Proc) : (s.updProcAt k q f).arg = s.arg := rfl
@[simp] theorem State.updProcAt_presenting (s : State) (k q : Nat) (f : Proc → Proc) : (s.updProcAt k q f).presenting = s.presenting := rfl
@[simp] theorem State.updProcAt_strays (s : State) (k q : Nat) (f : Proc → Proc) : (s.updProcAt k q f).strays = s.strays := rfl
@[simp] theorem State.updProcAt_time (s : State) (k q : Nat) (f : Proc → Proc) : (s.updProcAt k q f).time = s.time := rfl
@[simp] theorem State.updProcAt_msgs (s : State) (k q : Nat) (f : Proc → Proc) : (s.updProcAt k q f).msgs = s.msgs := rfl
@[simp] theorem State.updProcAt_farOut (s : State) (k q : Nat) (f : Proc → Proc) : (s.updProcAt k q f).farOut = s.farOut := rfl
@[simp] theorem State.updProcAt_acksOut (s : State) (k q : Nat) (f : Proc → Proc) : (s.updProcAt k q f).acksOut = s.acksOut := rfl
@[simp] theorem State.updProcAt_hbm (s : State) (k q : Nat) (f : Proc → Proc) : (s.updProcAt k q f).hbm = s.hbm := rfl
@[simp] theorem State.updProcAt_frameTen (s : State) (k q : Nat) (f : Proc → Proc) : (s.updProcAt k q f).frameTen = s.frameTen := rfl
@[simp] theorem State.updProcAt_hostMem (s : State) (k q : Nat) (f : Proc → Proc) : (s.updProcAt k q f).hostMem = s.hostMem := rfl
@[simp] theorem State.updProcAt_peerMem (s : State) (k q : Nat) (f : Proc → Proc) : (s.updProcAt k q f).peerMem = s.peerMem := rfl
@[simp] theorem State.updProcAt_nets (s : State) (k q : Nat) (f : Proc → Proc) : (s.updProcAt k q f).nets = s.nets := rfl
@[simp] theorem State.updProcAt_netCount (s : State) (k q : Nat) (f : Proc → Proc) : (s.updProcAt k q f).netCount = s.netCount := rfl
@[simp] theorem State.updProcAt_queues (s : State) (k q : Nat) (f : Proc → Proc) : (s.updProcAt k q f).queues = s.queues := rfl
@[simp] theorem State.updProcAt_parts (s : State) (k q : Nat) (f : Proc → Proc) : (s.updProcAt k q f).parts = s.parts := rfl
@[simp] theorem State.updProcAt_scrubs (s : State) (k q : Nat) (f : Proc → Proc) : (s.updProcAt k q f).scrubs = s.scrubs := rfl
@[simp] theorem State.updProcAt_receipts (s : State) (k q : Nat) (f : Proc → Proc) : (s.updProcAt k q f).receipts = s.receipts := rfl
@[simp] theorem State.updProcAt_regions (s : State) (k q : Nat) (f : Proc → Proc) : (s.updProcAt k q f).regions = s.regions := rfl
@[simp] theorem State.updProcAt_ptiles (s : State) (k q : Nat) (f : Proc → Proc) : (s.updProcAt k q f).ptiles = s.ptiles := rfl
@[simp] theorem State.updProcAt_links (s : State) (k q : Nat) (f : Proc → Proc) : (s.updProcAt k q f).links = s.links := rfl
@[simp] theorem State.updProcAt_linkGen (s : State) (k q : Nat) (f : Proc → Proc) : (s.updProcAt k q f).linkGen = s.linkGen := rfl
@[simp] theorem State.updProcAt_lanes (s : State) (k q : Nat) (f : Proc → Proc) : (s.updProcAt k q f).lanes = s.lanes := rfl
@[simp] theorem State.updProcAt_optPorts (s : State) (k q : Nat) (f : Proc → Proc) : (s.updProcAt k q f).optPorts = s.optPorts := rfl
@[simp] theorem State.updProcAt_up (s : State) (k q : Nat) (f : Proc → Proc) : (s.updProcAt k q f).up = s.up := rfl
@[simp] theorem State.updProcAt_ten (s : State) (k q : Nat) (f : Proc → Proc) : (s.updProcAt k q f).ten = s.ten := rfl
@[simp] theorem State.updProcAt_rel (s : State) (k q : Nat) (f : Proc → Proc) : (s.updProcAt k q f).rel = s.rel := rfl
@[simp] theorem State.updProcAt_ev (s : State) (k q : Nat) (f : Proc → Proc) : (s.updProcAt k q f).ev = s.ev := rfl
@[simp] theorem State.updProcAt_health (s : State) (k q : Nat) (f : Proc → Proc) : (s.updProcAt k q f).health = s.health := rfl
@[simp] theorem State.updProcAt_msix (s : State) (k q : Nat) (f : Proc → Proc) : (s.updProcAt k q f).msix = s.msix := rfl

@[simp] theorem State.updHere_cur (s : State) (f : VTile → VTile) : (s.updHere f).cur = s.cur := rfl
@[simp] theorem State.updHere_turn (s : State) (f : VTile → VTile) : (s.updHere f).turn = s.turn := rfl
@[simp] theorem State.updHere_count (s : State) (f : VTile → VTile) : (s.updHere f).count = s.count := rfl
@[simp] theorem State.updHere_inputs (s : State) (f : VTile → VTile) : (s.updHere f).inputs = s.inputs := rfl
@[simp] theorem State.updHere_arg (s : State) (f : VTile → VTile) : (s.updHere f).arg = s.arg := rfl
@[simp] theorem State.updHere_presenting (s : State) (f : VTile → VTile) : (s.updHere f).presenting = s.presenting := rfl
@[simp] theorem State.updHere_strays (s : State) (f : VTile → VTile) : (s.updHere f).strays = s.strays := rfl
@[simp] theorem State.updHere_time (s : State) (f : VTile → VTile) : (s.updHere f).time = s.time := rfl
@[simp] theorem State.updHere_msgs (s : State) (f : VTile → VTile) : (s.updHere f).msgs = s.msgs := rfl
@[simp] theorem State.updHere_farOut (s : State) (f : VTile → VTile) : (s.updHere f).farOut = s.farOut := rfl
@[simp] theorem State.updHere_acksOut (s : State) (f : VTile → VTile) : (s.updHere f).acksOut = s.acksOut := rfl
@[simp] theorem State.updHere_hbm (s : State) (f : VTile → VTile) : (s.updHere f).hbm = s.hbm := rfl
@[simp] theorem State.updHere_frameTen (s : State) (f : VTile → VTile) : (s.updHere f).frameTen = s.frameTen := rfl
@[simp] theorem State.updHere_hostMem (s : State) (f : VTile → VTile) : (s.updHere f).hostMem = s.hostMem := rfl
@[simp] theorem State.updHere_peerMem (s : State) (f : VTile → VTile) : (s.updHere f).peerMem = s.peerMem := rfl
@[simp] theorem State.updHere_nets (s : State) (f : VTile → VTile) : (s.updHere f).nets = s.nets := rfl
@[simp] theorem State.updHere_netCount (s : State) (f : VTile → VTile) : (s.updHere f).netCount = s.netCount := rfl
@[simp] theorem State.updHere_queues (s : State) (f : VTile → VTile) : (s.updHere f).queues = s.queues := rfl
@[simp] theorem State.updHere_parts (s : State) (f : VTile → VTile) : (s.updHere f).parts = s.parts := rfl
@[simp] theorem State.updHere_scrubs (s : State) (f : VTile → VTile) : (s.updHere f).scrubs = s.scrubs := rfl
@[simp] theorem State.updHere_receipts (s : State) (f : VTile → VTile) : (s.updHere f).receipts = s.receipts := rfl
@[simp] theorem State.updHere_regions (s : State) (f : VTile → VTile) : (s.updHere f).regions = s.regions := rfl
@[simp] theorem State.updHere_ptiles (s : State) (f : VTile → VTile) : (s.updHere f).ptiles = s.ptiles := rfl
@[simp] theorem State.updHere_links (s : State) (f : VTile → VTile) : (s.updHere f).links = s.links := rfl
@[simp] theorem State.updHere_linkGen (s : State) (f : VTile → VTile) : (s.updHere f).linkGen = s.linkGen := rfl
@[simp] theorem State.updHere_lanes (s : State) (f : VTile → VTile) : (s.updHere f).lanes = s.lanes := rfl
@[simp] theorem State.updHere_optPorts (s : State) (f : VTile → VTile) : (s.updHere f).optPorts = s.optPorts := rfl
@[simp] theorem State.updHere_up (s : State) (f : VTile → VTile) : (s.updHere f).up = s.up := rfl
@[simp] theorem State.updHere_ten (s : State) (f : VTile → VTile) : (s.updHere f).ten = s.ten := rfl
@[simp] theorem State.updHere_rel (s : State) (f : VTile → VTile) : (s.updHere f).rel = s.rel := rfl
@[simp] theorem State.updHere_ev (s : State) (f : VTile → VTile) : (s.updHere f).ev = s.ev := rfl
@[simp] theorem State.updHere_health (s : State) (f : VTile → VTile) : (s.updHere f).health = s.health := rfl
@[simp] theorem State.updHere_msix (s : State) (f : VTile → VTile) : (s.updHere f).msix = s.msix := rfl

@[simp] theorem State.updProc_cur (s : State) (f : Proc → Proc) : (s.updProc f).cur = s.cur := rfl
@[simp] theorem State.updProc_turn (s : State) (f : Proc → Proc) : (s.updProc f).turn = s.turn := rfl
@[simp] theorem State.updProc_count (s : State) (f : Proc → Proc) : (s.updProc f).count = s.count := rfl
@[simp] theorem State.updProc_inputs (s : State) (f : Proc → Proc) : (s.updProc f).inputs = s.inputs := rfl
@[simp] theorem State.updProc_arg (s : State) (f : Proc → Proc) : (s.updProc f).arg = s.arg := rfl
@[simp] theorem State.updProc_presenting (s : State) (f : Proc → Proc) : (s.updProc f).presenting = s.presenting := rfl
@[simp] theorem State.updProc_strays (s : State) (f : Proc → Proc) : (s.updProc f).strays = s.strays := rfl
@[simp] theorem State.updProc_time (s : State) (f : Proc → Proc) : (s.updProc f).time = s.time := rfl
@[simp] theorem State.updProc_msgs (s : State) (f : Proc → Proc) : (s.updProc f).msgs = s.msgs := rfl
@[simp] theorem State.updProc_farOut (s : State) (f : Proc → Proc) : (s.updProc f).farOut = s.farOut := rfl
@[simp] theorem State.updProc_acksOut (s : State) (f : Proc → Proc) : (s.updProc f).acksOut = s.acksOut := rfl
@[simp] theorem State.updProc_hbm (s : State) (f : Proc → Proc) : (s.updProc f).hbm = s.hbm := rfl
@[simp] theorem State.updProc_frameTen (s : State) (f : Proc → Proc) : (s.updProc f).frameTen = s.frameTen := rfl
@[simp] theorem State.updProc_hostMem (s : State) (f : Proc → Proc) : (s.updProc f).hostMem = s.hostMem := rfl
@[simp] theorem State.updProc_peerMem (s : State) (f : Proc → Proc) : (s.updProc f).peerMem = s.peerMem := rfl
@[simp] theorem State.updProc_nets (s : State) (f : Proc → Proc) : (s.updProc f).nets = s.nets := rfl
@[simp] theorem State.updProc_netCount (s : State) (f : Proc → Proc) : (s.updProc f).netCount = s.netCount := rfl
@[simp] theorem State.updProc_queues (s : State) (f : Proc → Proc) : (s.updProc f).queues = s.queues := rfl
@[simp] theorem State.updProc_parts (s : State) (f : Proc → Proc) : (s.updProc f).parts = s.parts := rfl
@[simp] theorem State.updProc_scrubs (s : State) (f : Proc → Proc) : (s.updProc f).scrubs = s.scrubs := rfl
@[simp] theorem State.updProc_receipts (s : State) (f : Proc → Proc) : (s.updProc f).receipts = s.receipts := rfl
@[simp] theorem State.updProc_regions (s : State) (f : Proc → Proc) : (s.updProc f).regions = s.regions := rfl
@[simp] theorem State.updProc_ptiles (s : State) (f : Proc → Proc) : (s.updProc f).ptiles = s.ptiles := rfl
@[simp] theorem State.updProc_links (s : State) (f : Proc → Proc) : (s.updProc f).links = s.links := rfl
@[simp] theorem State.updProc_linkGen (s : State) (f : Proc → Proc) : (s.updProc f).linkGen = s.linkGen := rfl
@[simp] theorem State.updProc_lanes (s : State) (f : Proc → Proc) : (s.updProc f).lanes = s.lanes := rfl
@[simp] theorem State.updProc_optPorts (s : State) (f : Proc → Proc) : (s.updProc f).optPorts = s.optPorts := rfl
@[simp] theorem State.updProc_up (s : State) (f : Proc → Proc) : (s.updProc f).up = s.up := rfl
@[simp] theorem State.updProc_ten (s : State) (f : Proc → Proc) : (s.updProc f).ten = s.ten := rfl
@[simp] theorem State.updProc_rel (s : State) (f : Proc → Proc) : (s.updProc f).rel = s.rel := rfl
@[simp] theorem State.updProc_ev (s : State) (f : Proc → Proc) : (s.updProc f).ev = s.ev := rfl
@[simp] theorem State.updProc_health (s : State) (f : Proc → Proc) : (s.updProc f).health = s.health := rfl
@[simp] theorem State.updProc_msix (s : State) (f : Proc → Proc) : (s.updProc f).msix = s.msix := rfl

/-! The vtile and the context that an update reaches, and the others. -/

theorem State.tile_updTile (s : State) (k j : Nat) (f : VTile → VTile) :
    (s.updTile k f).tile j = if j = k then f (s.tile k) else s.tile j := by
  simp [State.updTile, State.setTile, State.tile, Sparse.get_set]

@[simp] theorem State.tile_updTile_same (s : State) (k : Nat) (f : VTile → VTile) :
    (s.updTile k f).tile k = f (s.tile k) := by simp [State.tile_updTile]

theorem VTile.proc_updProc (t : VTile) (q r : Nat) (f : Proc → Proc) :
    (t.updProc q f).proc r = if r = q then f (t.proc q) else t.proc r := by
  simp [VTile.updProc, VTile.setProc, VTile.proc, Sparse.get_set]

@[simp] theorem VTile.proc_updProc_same (t : VTile) (q : Nat) (f : Proc → Proc) :
    (t.updProc q f).proc q = f (t.proc q) := by simp [VTile.proc_updProc]

theorem State.procAt_updProcAt (s : State) (k q j r : Nat) (f : Proc → Proc) :
    (s.updProcAt k q f).procAt j r = if j = k ∧ r = q then f (s.procAt k q) else s.procAt j r := by
  simp only [State.updProcAt, State.procAt, State.tile_updTile]
  split
  · rename_i h
    subst h
    simp [VTile.proc_updProc]
  · simp [*]

@[simp] theorem State.procAt_updProcAt_same (s : State) (k q : Nat) (f : Proc → Proc) :
    (s.updProcAt k q f).procAt k q = f (s.procAt k q) := by simp [State.procAt_updProcAt]

@[simp] theorem State.here_updHere (s : State) (f : VTile → VTile) : (s.updHere f).here = f s.here := by
  simp [State.updHere, State.here, State.tile_updTile]

@[simp] theorem State.proc_updProc (s : State) (f : Proc → Proc) : (s.updProc f).proc = f s.proc := by
  simp [State.updProc, State.proc, State.procAt_updProcAt]

theorem State.procAt_updProc (s : State) (j r : Nat) (f : Proc → Proc) :
    (s.updProc f).procAt j r = if j = s.cur.vt ∧ r = s.cur.who then f s.proc else s.procAt j r := by
  simp [State.updProc, State.proc, State.procAt_updProcAt]

/-! Registers (R130). -/

theorem Proc.rg_wg (p : Proc) (d r : Reg) (v : GReg) :
    (p.wg d v).rg r = if r = d ∧ d ≠ 0 then v else p.rg r := by
  unfold Proc.wg Proc.rg
  by_cases hd : d = 0
  · simp [hd]
  · by_cases hr : r = 0
    · subst hr; simp [show ¬(0#_ = d) from fun h => hd h.symm]
    · simp only [hd, hr, if_false, Sparse.get_set, BitVec.toNat_inj, ne_eq, not_false_eq_true, and_true]

/-- g0 reads as untagged zero. -/
@[simp] theorem Proc.rg_zero (p : Proc) : p.rg 0#5 = {} := rfl

/-- A write to g0 is discarded. -/
@[simp] theorem Proc.wg_zero (p : Proc) (v : GReg) : p.wg 0#5 v = p := rfl

@[simp] theorem Proc.wg_fst (p : Proc) (d : Reg) (v : GReg) : (p.wg d v).fst = p.fst := by unfold Proc.wg; split <;> rfl

@[simp] theorem Proc.wg_pc (p : Proc) (d : Reg) (v : GReg) : (p.wg d v).pc = p.pc := by unfold Proc.wg; split <;> rfl

theorem Proc.rm_wm (p : Proc) (d r : MReg) (v : Word) :
    (p.wm d v).rm r = if r = d ∧ d ≠ 0 then v else p.rm r := by
  unfold Proc.wm Proc.rm
  by_cases hd : d = 0
  · simp [hd]
  · by_cases hr : r = 0
    · subst hr; simp [show ¬(0#_ = d) from fun h => hd h.symm]
    · simp only [hd, hr, if_false, Sparse.get_set, BitVec.toNat_inj, ne_eq, not_false_eq_true, and_true]

@[simp] theorem dataReg_x (v : Word) : (dataReg v).x = v := by
  simp [dataReg, GReg.x]

@[simp] theorem dataReg_tag (v : Word) : (dataReg v).tag = false := rfl

end Sys2Proof.Machine
end

