-- ==== Sys2Proof/Laws/Context.lean ====
section
/-! SUPPORT. What the operations on the executing context leave as it was. -/

namespace Sys2Proof.Machine

theorem VTile.im_updProc (t : VTile) (q : Nat) (f : Proc → Proc) :
    (t.updProc q f).im = { t.im with procs := Sparse.set t.im.procs q (f (t.proc q)) } := rfl

/-- A change of the executing context changes nothing else. -/
theorem onlyContext_updProc (s : State) (f : Proc → Proc) : OnlyContext s (s.updProc f) where
  rest := rfl
  contexts := by
    intro k q h
    rw [State.procAt_updProc, if_neg h]
  tiles := by
    intro k
    simp only [State.updProc, State.updProcAt, State.tile_updTile]
    split
    · rename_i h; subst h; rfl
    · rfl
  bytes := by
    intro k a
    have h : (s.updProc f).tile k = { s.tile k with im := { (s.tile k).im with procs := ((s.updProc f).tile k).im.procs } } := by
      simp only [State.updProc, State.updProcAt, State.tile_updTile]
      split
      · rename_i h; subst h; rfl
      · rfl
    unfold State.readByte
    rw [h]
    rfl

theorem OnlyContext.trans {s t u : State} (h : OnlyContext s t) (k : OnlyContext t u) : OnlyContext s u := by
  have hc : t.cur = s.cur := by rw [h.rest]
  refine ⟨?_, ?_, ?_, fun j a => (k.bytes j a).trans (h.bytes j a)⟩
  · have e : t = { s with vts := t.vts } := h.rest
    have e' : u = { t with vts := u.vts } := k.rest
    rw [e', e]
  · intro j q hn
    rw [k.contexts j q (by rwa [hc]), h.contexts j q hn]
  · intro j
    rw [← h.tiles j, ← k.tiles j]

/-- A write of a g register with flags, and on to an address. -/
theorem writesG_of {s t : State} {d : Reg} {v : GReg} {pc : Pc} {fl : FFlags} (h : OnlyContext s t)
    (hp : t.proc = { s.proc.wg d v with pc := pc, fst := s.proc.fst ||| fl }) : WritesG s t d v pc fl where
  only := h
  dest := by
    intro hd
    simp only [State.g, hp]
    exact (Proc.rg_wg s.proc d d v).trans (if_pos ⟨rfl, hd⟩)
  zero := rfl
  others := by
    intro r hr
    simp only [State.g, hp]
    exact (Proc.rg_wg s.proc d r v).trans (if_neg (fun h => hr h.1))
  pc := by rw [hp]
  flags := by rw [hp]
  rest := by
    rw [hp]
    unfold Proc.wg
    split <;> rfl

/-- A write of a g register with no flag, and on to an address. -/
theorem writesG_of_plain {s t : State} {d : Reg} {v : GReg} {pc : Pc} (h : OnlyContext s t)
    (hp : t.proc = { s.proc.wg d v with pc := pc }) : WritesG s t d v pc 0 :=
  writesG_of h (by
    have e : s.proc.fst ||| (0 : FFlags) = (s.proc.wg d v).fst := by rw [Proc.wg_fst]; exact BitVec.or_zero
    rw [hp, e])

theorem onlyContext_refl (s : State) : OnlyContext s s := ⟨rfl, fun _ _ _ => rfl, fun _ => rfl, fun _ _ => rfl⟩

theorem onlyContext_next (s : State) : OnlyContext s s.next := onlyContext_updProc _ _
theorem onlyContext_goto (s : State) (pc : Pc) : OnlyContext s (s.goto pc) := onlyContext_updProc _ _
theorem onlyContext_wg (s : State) (d : Reg) (v : GReg) : OnlyContext s (s.wg d v) := onlyContext_updProc _ _
theorem onlyContext_put (s : State) (d : Reg) (v : Word) : OnlyContext s (s.put d v) :=
  (onlyContext_wg s d (dataReg v)).trans (onlyContext_next _)

@[simp] theorem State.proc_next (s : State) : s.next.proc = { s.proc with pc := s.proc.pc + 4 } := by simp [State.next]
@[simp] theorem State.proc_goto (s : State) (pc : Pc) : (s.goto pc).proc = { s.proc with pc := pc } := by simp [State.goto]
@[simp] theorem State.proc_wg (s : State) (d : Reg) (v : GReg) : (s.wg d v).proc = s.proc.wg d v := by simp [State.wg]
@[simp] theorem State.proc_wx (s : State) (d : Reg) (v : Word) : (s.wx d v).proc = s.proc.wg d (dataReg v) := by
  simp [State.wx]
@[simp] theorem State.proc_put (s : State) (d : Reg) (v : Word) :
    (s.put d v).proc = { s.proc.wg d (dataReg v) with pc := s.proc.pc + 4 } := by simp [State.put]

/-- A register written whole, and on to the next instruction. -/
theorem writesG_wg_next (s : State) (d : Reg) (v : GReg) : WritesG s (s.wg d v).next d v (s.proc.pc + 4) 0 :=
  writesG_of_plain ((onlyContext_wg s d v).trans (onlyContext_next _)) (by simp)

/-- Data written, and on to the next instruction. -/
theorem writes_put (s : State) (d : Reg) (v : Word) : Writes s (s.put d v) d v := writesG_wg_next s d (dataReg v)

/-- On to an address with nothing written. -/
theorem goesTo_goto (s : State) (pc : Pc) : GoesTo s (s.goto pc) pc :=
  writesG_of_plain (onlyContext_goto s pc) (by simp)

theorem goesTo_next (s : State) : GoesTo s s.next (s.proc.pc + 4) :=
  writesG_of_plain (onlyContext_next s) (by simp)

/-- Data written, and on to an address. -/
theorem writesG_wx_goto (s : State) (d : Reg) (v : Word) (pc : Pc) :
    WritesG s ((s.wx d v).goto pc) d (dataReg v) pc 0 :=
  writesG_of_plain ((onlyContext_wg s d (dataReg v)).trans (onlyContext_goto _ _)) (by simp)

end Sys2Proof.Machine
end

