-- ==== Sys2Proof/Laws/Encode.lean ====
section
/-! SUPPORT. The encoder's formats as numbers, and the fields the decoder reads back from each. -/

namespace Sys2Proof

/-- An appended vector as a number. -/
theorem toNat_append_mul {n m : Nat} (x : BitVec n) (y : BitVec m) : (x ++ y).toNat = x.toNat * 2 ^ m + y.toNat := by
  rw [BitVec.toNat_append, Nat.shiftLeft_eq, Nat.mul_comm, Nat.two_pow_add_eq_or_of_lt y.isLt]

/-- A field of a word as a number. -/
theorem toNat_field {n : Nat} (x : BitVec n) (lo len : Nat) : (x.extractLsb' lo len).toNat = x.toNat / 2 ^ lo % 2 ^ len := by
  simp [BitVec.extractLsb'_toNat, Nat.shiftRight_eq_div_pow]

/-- A flag bit as a number. -/
theorem toNat_ofBool_lt (t : Bool) : (BitVec.ofBool t).toNat < 2 := by cases t <;> decide

/-- A word of the R format as a number. -/
theorem toNat_encR (m : BitVec 7) (d : BitVec 5) (a : BitVec 5) (b : BitVec 5) (fn : BitVec 10) :
    (encR m d a b fn).toNat = ((((m.toNat) * 32 + d.toNat) * 32 + a.toNat) * 32 + b.toNat) * 1024 + fn.toNat := by
  simp only [encR, toNat_append_mul] <;> omega

@[simp] theorem fMajor_encR (m : BitVec 7) (d : BitVec 5) (a : BitVec 5) (b : BitVec 5) (fn : BitVec 10) : fMajor (encR m d a b fn) = m := by
  apply BitVec.eq_of_toNat_eq
  rw [fMajor, toNat_field, toNat_encR]
  have hm := m.isLt
  have hd := d.isLt
  have ha := a.isLt
  have hb := b.isLt
  have hfn := fn.isLt
  omega

@[simp] theorem fD_encR (m : BitVec 7) (d : BitVec 5) (a : BitVec 5) (b : BitVec 5) (fn : BitVec 10) : fD (encR m d a b fn) = d := by
  apply BitVec.eq_of_toNat_eq
  rw [fD, toNat_field, toNat_encR]
  have hm := m.isLt
  have hd := d.isLt
  have ha := a.isLt
  have hb := b.isLt
  have hfn := fn.isLt
  omega

@[simp] theorem fA_encR (m : BitVec 7) (d : BitVec 5) (a : BitVec 5) (b : BitVec 5) (fn : BitVec 10) : fA (encR m d a b fn) = a := by
  apply BitVec.eq_of_toNat_eq
  rw [fA, toNat_field, toNat_encR]
  have hm := m.isLt
  have hd := d.isLt
  have ha := a.isLt
  have hb := b.isLt
  have hfn := fn.isLt
  omega

@[simp] theorem fB_encR (m : BitVec 7) (d : BitVec 5) (a : BitVec 5) (b : BitVec 5) (fn : BitVec 10) : fB (encR m d a b fn) = b := by
  apply BitVec.eq_of_toNat_eq
  rw [fB, toNat_field, toNat_encR]
  have hm := m.isLt
  have hd := d.isLt
  have ha := a.isLt
  have hb := b.isLt
  have hfn := fn.isLt
  omega

@[simp] theorem fFn10_encR (m : BitVec 7) (d : BitVec 5) (a : BitVec 5) (b : BitVec 5) (fn : BitVec 10) : fFn10 (encR m d a b fn) = fn := by
  apply BitVec.eq_of_toNat_eq
  rw [fFn10, toNat_field, toNat_encR]
  have hm := m.isLt
  have hd := d.isLt
  have ha := a.isLt
  have hb := b.isLt
  have hfn := fn.isLt
  omega

/-- A word of the I format as a number. -/
theorem toNat_encI (m : BitVec 7) (d : BitVec 5) (a : BitVec 5) (i : BitVec 15) :
    (encI m d a i).toNat = (((m.toNat) * 32 + d.toNat) * 32 + a.toNat) * 32768 + i.toNat := by
  simp only [encI, toNat_append_mul] <;> omega

@[simp] theorem fMajor_encI (m : BitVec 7) (d : BitVec 5) (a : BitVec 5) (i : BitVec 15) : fMajor (encI m d a i) = m := by
  apply BitVec.eq_of_toNat_eq
  rw [fMajor, toNat_field, toNat_encI]
  have hm := m.isLt
  have hd := d.isLt
  have ha := a.isLt
  have hi := i.isLt
  omega

@[simp] theorem fD_encI (m : BitVec 7) (d : BitVec 5) (a : BitVec 5) (i : BitVec 15) : fD (encI m d a i) = d := by
  apply BitVec.eq_of_toNat_eq
  rw [fD, toNat_field, toNat_encI]
  have hm := m.isLt
  have hd := d.isLt
  have ha := a.isLt
  have hi := i.isLt
  omega

@[simp] theorem fA_encI (m : BitVec 7) (d : BitVec 5) (a : BitVec 5) (i : BitVec 15) : fA (encI m d a i) = a := by
  apply BitVec.eq_of_toNat_eq
  rw [fA, toNat_field, toNat_encI]
  have hm := m.isLt
  have hd := d.isLt
  have ha := a.isLt
  have hi := i.isLt
  omega

@[simp] theorem fImm15_encI (m : BitVec 7) (d : BitVec 5) (a : BitVec 5) (i : BitVec 15) : fImm15 (encI m d a i) = i := by
  apply BitVec.eq_of_toNat_eq
  rw [fImm15, toNat_field, toNat_encI]
  have hm := m.isLt
  have hd := d.isLt
  have ha := a.isLt
  have hi := i.isLt
  omega

/-- A word of the U format as a number. -/
theorem toNat_encU (m : BitVec 7) (d : BitVec 5) (i : BitVec 20) :
    (encU m d i).toNat = ((m.toNat) * 32 + d.toNat) * 1048576 + i.toNat := by
  simp only [encU, toNat_append_mul] <;> omega

@[simp] theorem fMajor_encU (m : BitVec 7) (d : BitVec 5) (i : BitVec 20) : fMajor (encU m d i) = m := by
  apply BitVec.eq_of_toNat_eq
  rw [fMajor, toNat_field, toNat_encU]
  have hm := m.isLt
  have hd := d.isLt
  have hi := i.isLt
  omega

@[simp] theorem fD_encU (m : BitVec 7) (d : BitVec 5) (i : BitVec 20) : fD (encU m d i) = d := by
  apply BitVec.eq_of_toNat_eq
  rw [fD, toNat_field, toNat_encU]
  have hm := m.isLt
  have hd := d.isLt
  have hi := i.isLt
  omega

@[simp] theorem fImm20_encU (m : BitVec 7) (d : BitVec 5) (i : BitVec 20) : fImm20 (encU m d i) = i := by
  apply BitVec.eq_of_toNat_eq
  rw [fImm20, toNat_field, toNat_encU]
  have hm := m.isLt
  have hd := d.isLt
  have hi := i.isLt
  omega

/-- A word of the K format as a number. -/
theorem toNat_encK (m : BitVec 7) (d : BitVec 5) (a : BitVec 5) (k : BitVec 8) (fn : BitVec 7) :
    (encK m d a k fn).toNat = ((((m.toNat) * 32 + d.toNat) * 32 + a.toNat) * 256 + k.toNat) * 128 + fn.toNat := by
  simp only [encK, toNat_append_mul] <;> omega

@[simp] theorem fMajor_encK (m : BitVec 7) (d : BitVec 5) (a : BitVec 5) (k : BitVec 8) (fn : BitVec 7) : fMajor (encK m d a k fn) = m := by
  apply BitVec.eq_of_toNat_eq
  rw [fMajor, toNat_field, toNat_encK]
  have hm := m.isLt
  have hd := d.isLt
  have ha := a.isLt
  have hk := k.isLt
  have hfn := fn.isLt
  omega

@[simp] theorem fD_encK (m : BitVec 7) (d : BitVec 5) (a : BitVec 5) (k : BitVec 8) (fn : BitVec 7) : fD (encK m d a k fn) = d := by
  apply BitVec.eq_of_toNat_eq
  rw [fD, toNat_field, toNat_encK]
  have hm := m.isLt
  have hd := d.isLt
  have ha := a.isLt
  have hk := k.isLt
  have hfn := fn.isLt
  omega

@[simp] theorem fA_encK (m : BitVec 7) (d : BitVec 5) (a : BitVec 5) (k : BitVec 8) (fn : BitVec 7) : fA (encK m d a k fn) = a := by
  apply BitVec.eq_of_toNat_eq
  rw [fA, toNat_field, toNat_encK]
  have hm := m.isLt
  have hd := d.isLt
  have ha := a.isLt
  have hk := k.isLt
  have hfn := fn.isLt
  omega

@[simp] theorem fK8_encK (m : BitVec 7) (d : BitVec 5) (a : BitVec 5) (k : BitVec 8) (fn : BitVec 7) : fK8 (encK m d a k fn) = k := by
  apply BitVec.eq_of_toNat_eq
  rw [fK8, toNat_field, toNat_encK]
  have hm := m.isLt
  have hd := d.isLt
  have ha := a.isLt
  have hk := k.isLt
  have hfn := fn.isLt
  omega

@[simp] theorem fFn7_encK (m : BitVec 7) (d : BitVec 5) (a : BitVec 5) (k : BitVec 8) (fn : BitVec 7) : fFn7 (encK m d a k fn) = fn := by
  apply BitVec.eq_of_toNat_eq
  rw [fFn7, toNat_field, toNat_encK]
  have hm := m.isLt
  have hd := d.isLt
  have ha := a.isLt
  have hk := k.isLt
  have hfn := fn.isLt
  omega

/-- A word of the V format as a number. -/
theorem toNat_encV (m : BitVec 7) (d : BitVec 5) (a : BitVec 5) (b : BitVec 5) (mk : BitVec 3) (t : BitVec 4) (fn : BitVec 3) :
    (encV m d a b mk t fn).toNat = ((((((m.toNat) * 32 + d.toNat) * 32 + a.toNat) * 32 + b.toNat) * 8 + mk.toNat) * 16 + t.toNat) * 8 + fn.toNat := by
  simp only [encV, toNat_append_mul] <;> omega

@[simp] theorem fMajor_encV (m : BitVec 7) (d : BitVec 5) (a : BitVec 5) (b : BitVec 5) (mk : BitVec 3) (t : BitVec 4) (fn : BitVec 3) : fMajor (encV m d a b mk t fn) = m := by
  apply BitVec.eq_of_toNat_eq
  rw [fMajor, toNat_field, toNat_encV]
  have hm := m.isLt
  have hd := d.isLt
  have ha := a.isLt
  have hb := b.isLt
  have hmk := mk.isLt
  have ht := t.isLt
  have hfn := fn.isLt
  omega

@[simp] theorem fD_encV (m : BitVec 7) (d : BitVec 5) (a : BitVec 5) (b : BitVec 5) (mk : BitVec 3) (t : BitVec 4) (fn : BitVec 3) : fD (encV m d a b mk t fn) = d := by
  apply BitVec.eq_of_toNat_eq
  rw [fD, toNat_field, toNat_encV]
  have hm := m.isLt
  have hd := d.isLt
  have ha := a.isLt
  have hb := b.isLt
  have hmk := mk.isLt
  have ht := t.isLt
  have hfn := fn.isLt
  omega

@[simp] theorem fA_encV (m : BitVec 7) (d : BitVec 5) (a : BitVec 5) (b : BitVec 5) (mk : BitVec 3) (t : BitVec 4) (fn : BitVec 3) : fA (encV m d a b mk t fn) = a := by
  apply BitVec.eq_of_toNat_eq
  rw [fA, toNat_field, toNat_encV]
  have hm := m.isLt
  have hd := d.isLt
  have ha := a.isLt
  have hb := b.isLt
  have hmk := mk.isLt
  have ht := t.isLt
  have hfn := fn.isLt
  omega

@[simp] theorem fB_encV (m : BitVec 7) (d : BitVec 5) (a : BitVec 5) (b : BitVec 5) (mk : BitVec 3) (t : BitVec 4) (fn : BitVec 3) : fB (encV m d a b mk t fn) = b := by
  apply BitVec.eq_of_toNat_eq
  rw [fB, toNat_field, toNat_encV]
  have hm := m.isLt
  have hd := d.isLt
  have ha := a.isLt
  have hb := b.isLt
  have hmk := mk.isLt
  have ht := t.isLt
  have hfn := fn.isLt
  omega

@[simp] theorem fMk_encV (m : BitVec 7) (d : BitVec 5) (a : BitVec 5) (b : BitVec 5) (mk : BitVec 3) (t : BitVec 4) (fn : BitVec 3) : fMk (encV m d a b mk t fn) = mk := by
  apply BitVec.eq_of_toNat_eq
  rw [fMk, toNat_field, toNat_encV]
  have hm := m.isLt
  have hd := d.isLt
  have ha := a.isLt
  have hb := b.isLt
  have hmk := mk.isLt
  have ht := t.isLt
  have hfn := fn.isLt
  omega

@[simp] theorem fTy4_encV (m : BitVec 7) (d : BitVec 5) (a : BitVec 5) (b : BitVec 5) (mk : BitVec 3) (t : BitVec 4) (fn : BitVec 3) : fTy4 (encV m d a b mk t fn) = t := by
  apply BitVec.eq_of_toNat_eq
  rw [fTy4, toNat_field, toNat_encV]
  have hm := m.isLt
  have hd := d.isLt
  have ha := a.isLt
  have hb := b.isLt
  have hmk := mk.isLt
  have ht := t.isLt
  have hfn := fn.isLt
  omega

@[simp] theorem fFn3_encV (m : BitVec 7) (d : BitVec 5) (a : BitVec 5) (b : BitVec 5) (mk : BitVec 3) (t : BitVec 4) (fn : BitVec 3) : fFn3 (encV m d a b mk t fn) = fn := by
  apply BitVec.eq_of_toNat_eq
  rw [fFn3, toNat_field, toNat_encV]
  have hm := m.isLt
  have hd := d.isLt
  have ha := a.isLt
  have hb := b.isLt
  have hmk := mk.isLt
  have ht := t.isLt
  have hfn := fn.isLt
  omega

/-- A word of the M format as a number. -/
theorem toNat_encM (m : BitVec 7) (c : BitVec 3) (a : BitVec 5) (b : BitVec 5) (x : BitVec 5) (t : BitVec 5) :
    (encM m c a b x t).toNat = ((((((m.toNat) * 8 + c.toNat) * 4) * 32 + a.toNat) * 32 + b.toNat) * 32 + x.toNat) * 32 + t.toNat := by
  simp only [encM, toNat_append_mul, BitVec.toNat_ofNat]
  omega

@[simp] theorem fMajor_encM (m : BitVec 7) (c : BitVec 3) (a : BitVec 5) (b : BitVec 5) (x : BitVec 5) (t : BitVec 5) : fMajor (encM m c a b x t) = m := by
  apply BitVec.eq_of_toNat_eq
  rw [fMajor, toNat_field, toNat_encM]
  have hm := m.isLt
  have hc := c.isLt
  have ha := a.isLt
  have hb := b.isLt
  have hx := x.isLt
  have ht := t.isLt
  omega

@[simp] theorem fA_encM (m : BitVec 7) (c : BitVec 3) (a : BitVec 5) (b : BitVec 5) (x : BitVec 5) (t : BitVec 5) : fA (encM m c a b x t) = a := by
  apply BitVec.eq_of_toNat_eq
  rw [fA, toNat_field, toNat_encM]
  have hm := m.isLt
  have hc := c.isLt
  have ha := a.isLt
  have hb := b.isLt
  have hx := x.isLt
  have ht := t.isLt
  omega

@[simp] theorem fB_encM (m : BitVec 7) (c : BitVec 3) (a : BitVec 5) (b : BitVec 5) (x : BitVec 5) (t : BitVec 5) : fB (encM m c a b x t) = b := by
  apply BitVec.eq_of_toNat_eq
  rw [fB, toNat_field, toNat_encM]
  have hm := m.isLt
  have hc := c.isLt
  have ha := a.isLt
  have hb := b.isLt
  have hx := x.isLt
  have ht := t.isLt
  omega

@[simp] theorem fC_encM (m : BitVec 7) (c : BitVec 3) (a : BitVec 5) (b : BitVec 5) (x : BitVec 5) (t : BitVec 5) : fC (encM m c a b x t) = x := by
  apply BitVec.eq_of_toNat_eq
  rw [fC, toNat_field, toNat_encM]
  have hm := m.isLt
  have hc := c.isLt
  have ha := a.isLt
  have hb := b.isLt
  have hx := x.isLt
  have ht := t.isLt
  omega

@[simp] theorem fLow5_encM (m : BitVec 7) (c : BitVec 3) (a : BitVec 5) (b : BitVec 5) (x : BitVec 5) (t : BitVec 5) : fLow5 (encM m c a b x t) = t := by
  apply BitVec.eq_of_toNat_eq
  rw [fLow5, toNat_field, toNat_encM]
  have hm := m.isLt
  have hc := c.isLt
  have ha := a.isLt
  have hb := b.isLt
  have hx := x.isLt
  have ht := t.isLt
  omega

@[simp] theorem fAcc_encM (m : BitVec 7) (c : BitVec 3) (a : BitVec 5) (b : BitVec 5) (x : BitVec 5) (t : BitVec 5) : fAcc (encM m c a b x t) = c := by
  apply BitVec.eq_of_toNat_eq
  rw [fAcc, toNat_field, toNat_encM]
  have hm := m.isLt
  have hc := c.isLt
  have ha := a.isLt
  have hb := b.isLt
  have hx := x.isLt
  have ht := t.isLt
  omega

/-- A word of the C format as a number. -/
theorem toNat_encC (m : BitVec 7) (d : BitVec 5) (e : BitVec 8) (s : BitVec 5) (x : BitVec 5) (t : Bool) :
    (encC m d e s x t).toNat = ((((((m.toNat) * 32 + d.toNat) * 256 + e.toNat) * 32 + s.toNat) * 32 + x.toNat) * 2 + (BitVec.ofBool t).toNat) * 2 := by
  simp only [encC, toNat_append_mul, BitVec.toNat_ofNat]
  omega

@[simp] theorem fMajor_encC (m : BitVec 7) (d : BitVec 5) (e : BitVec 8) (s : BitVec 5) (x : BitVec 5) (t : Bool) : fMajor (encC m d e s x t) = m := by
  apply BitVec.eq_of_toNat_eq
  rw [fMajor, toNat_field, toNat_encC]
  have hm := m.isLt
  have hd := d.isLt
  have he := e.isLt
  have hs := s.isLt
  have hx := x.isLt
  have ht := toNat_ofBool_lt t
  omega

@[simp] theorem fD_encC (m : BitVec 7) (d : BitVec 5) (e : BitVec 8) (s : BitVec 5) (x : BitVec 5) (t : Bool) : fD (encC m d e s x t) = d := by
  apply BitVec.eq_of_toNat_eq
  rw [fD, toNat_field, toNat_encC]
  have hm := m.isLt
  have hd := d.isLt
  have he := e.isLt
  have hs := s.isLt
  have hx := x.isLt
  have ht := toNat_ofBool_lt t
  omega

@[simp] theorem fEnd_encC (m : BitVec 7) (d : BitVec 5) (e : BitVec 8) (s : BitVec 5) (x : BitVec 5) (t : Bool) : fEnd (encC m d e s x t) = e := by
  apply BitVec.eq_of_toNat_eq
  rw [fEnd, toNat_field, toNat_encC]
  have hm := m.isLt
  have hd := d.isLt
  have he := e.isLt
  have hs := s.isLt
  have hx := x.isLt
  have ht := toNat_ofBool_lt t
  omega

@[simp] theorem fS_encC (m : BitVec 7) (d : BitVec 5) (e : BitVec 8) (s : BitVec 5) (x : BitVec 5) (t : Bool) : fS (encC m d e s x t) = s := by
  apply BitVec.eq_of_toNat_eq
  rw [fS, toNat_field, toNat_encC]
  have hm := m.isLt
  have hd := d.isLt
  have he := e.isLt
  have hs := s.isLt
  have hx := x.isLt
  have ht := toNat_ofBool_lt t
  omega

@[simp] theorem fX_encC (m : BitVec 7) (d : BitVec 5) (e : BitVec 8) (s : BitVec 5) (x : BitVec 5) (t : Bool) : fX (encC m d e s x t) = x := by
  apply BitVec.eq_of_toNat_eq
  rw [fX, toNat_field, toNat_encC]
  have hm := m.isLt
  have hd := d.isLt
  have he := e.isLt
  have hs := s.isLt
  have hx := x.isLt
  have ht := toNat_ofBool_lt t
  omega

@[simp] theorem fMajor_trap (m : BitVec 7) (i : BitVec 15) (fn : BitVec 10) : fMajor (m ++ i ++ fn) = m := by
  apply BitVec.eq_of_toNat_eq
  rw [fMajor, toNat_field, toNat_append_mul, toNat_append_mul]
  have hm := m.isLt
  have hi := i.isLt
  have hfn := fn.isLt
  omega

end Sys2Proof
end

