-- ==== Sys2Proof/Laws/PerInstr.lean ====
section
/-! SUPPORT. Laws stated for each instruction: its major opcode (R137) and the pipe it issues on (R133). -/

namespace Sys2Proof.Laws.MajorOpcode

open Sys2Proof

/-- The major opcode that R137 gives an instruction; an event has none. -/
def of : Instr → Option Nat
  | .add _ _ _ => some 0x00
  | .sub _ _ _ => some 0x00
  | .and _ _ _ => some 0x00
  | .or _ _ _ => some 0x00
  | .xor _ _ _ => some 0x00
  | .andn _ _ _ => some 0x00
  | .orn _ _ _ => some 0x00
  | .shl _ _ _ => some 0x00
  | .shr _ _ _ => some 0x00
  | .sra _ _ _ => some 0x00
  | .rol _ _ _ => some 0x00
  | .ror _ _ _ => some 0x00
  | .addw _ _ _ => some 0x00
  | .subw _ _ _ => some 0x00
  | .mulw _ _ _ => some 0x00
  | .shlw _ _ _ => some 0x00
  | .shrw _ _ _ => some 0x00
  | .sraw _ _ _ => some 0x00
  | .mul _ _ _ => some 0x00
  | .mulh _ _ _ => some 0x00
  | .mulhn _ _ _ => some 0x00
  | .div _ _ _ => some 0x00
  | .divn _ _ _ => some 0x00
  | .rem _ _ _ => some 0x00
  | .remn _ _ _ => some 0x00
  | .min _ _ _ => some 0x00
  | .max _ _ _ => some 0x00
  | .minn _ _ _ => some 0x00
  | .maxn _ _ _ => some 0x00
  | .slt _ _ _ => some 0x00
  | .sltn _ _ _ => some 0x00
  | .seq _ _ _ => some 0x00
  | .clz _ _ => some 0x00
  | .ctz _ _ => some 0x00
  | .popc _ _ => some 0x00
  | .brev _ _ => some 0x00
  | .bswap _ _ => some 0x00
  | .sext _ _ _ => some 0x00
  | .zext _ _ _ => some 0x00
  | .csel _ _ _ _ => some 0x01
  | .addi _ _ _ => some 0x02
  | .andi _ _ _ => some 0x03
  | .ori _ _ _ => some 0x04
  | .xori _ _ _ => some 0x05
  | .shli _ _ _ => some 0x06
  | .shri _ _ _ => some 0x07
  | .srai _ _ _ => some 0x08
  | .slti _ _ _ => some 0x09
  | .sltni _ _ _ => some 0x0a
  | .lui _ _ => some 0x0b
  | .addpc _ _ => some 0x0c
  | .ldk _ _ => some 0x0d
  | .addk _ _ _ => some 0x0d
  | .cbnd _ _ _ => some 0x0e
  | .cinc _ _ _ => some 0x0e
  | .cperm _ _ _ => some 0x0e
  | .cbase _ _ => some 0x0e
  | .climit _ _ => some 0x0e
  | .cgetp _ _ => some 0x0e
  | .ctag _ _ => some 0x0e
  | .cuntag _ _ => some 0x0e
  | .csub _ _ _ => some 0x0e
  | .cinci _ _ _ => some 0x0f
  | .beq _ _ _ => some 0x10
  | .bne _ _ _ => some 0x11
  | .blt _ _ _ => some 0x12
  | .bge _ _ _ => some 0x13
  | .bltn _ _ _ => some 0x14
  | .bgen _ _ _ => some 0x15
  | .bz _ _ => some 0x16
  | .bnz _ _ => some 0x17
  | .jal _ _ => some 0x18
  | .jalr _ _ _ => some 0x19
  | .ldb _ _ _ => some 0x20
  | .ldbn _ _ _ => some 0x21
  | .ldh _ _ _ => some 0x22
  | .ldhn _ _ _ => some 0x23
  | .ldw _ _ _ => some 0x24
  | .ldwn _ _ _ => some 0x25
  | .ldd _ _ _ => some 0x26
  | .ldc _ _ _ => some 0x27
  | .stb _ _ _ => some 0x28
  | .sth _ _ _ => some 0x29
  | .stw _ _ _ => some 0x2a
  | .std _ _ _ => some 0x2b
  | .stc _ _ _ => some 0x2c
  | .amoadd _ _ _ _ => some 0x2d
  | .amoand _ _ _ _ => some 0x2d
  | .amoor _ _ _ _ => some 0x2d
  | .amoxor _ _ _ _ => some 0x2d
  | .amomin _ _ _ _ => some 0x2d
  | .amomax _ _ _ _ => some 0x2d
  | .amominn _ _ _ _ => some 0x2d
  | .amomaxn _ _ _ _ => some 0x2d
  | .amoswp _ _ _ _ => some 0x2d
  | .cas _ _ _ _ => some 0x2d
  | .fadd _ _ _ _ => some 0x30
  | .fsub _ _ _ _ => some 0x30
  | .fmul _ _ _ _ => some 0x30
  | .fdiv _ _ _ _ => some 0x30
  | .fsqrt _ _ _ => some 0x30
  | .fma _ _ _ _ _ => some 0x30
  | .fms _ _ _ _ _ => some 0x30
  | .fnma _ _ _ _ _ => some 0x30
  | .fnms _ _ _ _ _ => some 0x30
  | .fmin _ _ _ _ => some 0x30
  | .fmax _ _ _ _ => some 0x30
  | .fsgnJ _ _ _ _ => some 0x30
  | .fsgnN _ _ _ _ => some 0x30
  | .fsgnX _ _ _ _ => some 0x30
  | .fclass _ _ _ => some 0x30
  | .fcmpEq _ _ _ _ => some 0x31
  | .fcmpLt _ _ _ _ => some 0x31
  | .fcmpLe _ _ _ _ => some 0x31
  | .fcvt _ _ _ _ _ => some 0x31
  | .fmvk _ _ _ => some 0x32
  | .vadd _ _ _ _ _ => some 0x33
  | .vsub _ _ _ _ _ => some 0x33
  | .vmul _ _ _ _ _ => some 0x33
  | .vfma _ _ _ _ _ => some 0x33
  | .vfms _ _ _ _ _ => some 0x33
  | .vmin _ _ _ _ _ => some 0x33
  | .vmax _ _ _ _ _ => some 0x33
  | .vdot _ _ _ _ _ => some 0x33
  | .vand _ _ _ _ _ => some 0x34
  | .vor _ _ _ _ _ => some 0x34
  | .vxor _ _ _ _ _ => some 0x34
  | .vandn _ _ _ _ _ => some 0x34
  | .vshl _ _ _ _ _ => some 0x34
  | .vshr _ _ _ _ _ => some 0x34
  | .vsra _ _ _ _ _ => some 0x34
  | .vsel _ _ _ _ _ => some 0x34
  | .vabs _ _ _ _ => some 0x35
  | .vneg _ _ _ _ => some 0x35
  | .vexp2 _ _ _ _ => some 0x35
  | .vlog2 _ _ _ _ => some 0x35
  | .vrcp _ _ _ _ => some 0x35
  | .vrsq _ _ _ _ => some 0x35
  | .vsqrt _ _ _ _ => some 0x35
  | .vrng _ _ _ => some 0x35
  | .vcmpEq _ _ _ _ _ => some 0x36
  | .vcmpNe _ _ _ _ _ => some 0x36
  | .vcmpLt _ _ _ _ _ => some 0x36
  | .vcmpLe _ _ _ _ _ => some 0x36
  | .vredSum _ _ _ _ => some 0x37
  | .vredMin _ _ _ _ => some 0x37
  | .vredMax _ _ _ _ => some 0x37
  | .vld _ _ _ _ _ => some 0x38
  | .vst _ _ _ _ _ => some 0x38
  | .vlds _ _ _ _ _ => some 0x38
  | .vsts _ _ _ _ _ => some 0x38
  | .vgat _ _ _ _ _ => some 0x38
  | .vsct _ _ _ _ _ => some 0x38
  | .vbcast _ _ _ _ => some 0x39
  | .vext _ _ _ _ => some 0x39
  | .vins _ _ _ _ _ => some 0x39
  | .vperm _ _ _ _ _ => some 0x39
  | .vcvt _ _ _ _ _ _ => some 0x39
  | .vmxq _ _ _ => some 0x39
  | .vmxd _ _ _ => some 0x39
  | .mand _ _ _ => some 0x3a
  | .mor _ _ _ => some 0x3a
  | .mxor _ _ _ => some 0x3a
  | .mnot _ _ => some 0x3a
  | .mpop _ _ => some 0x3a
  | .mfst _ _ => some 0x3a
  | .mset _ _ => some 0x3a
  | .mget _ _ => some 0x3a
  | .rep _ _ => some 0x3b
  | .pbindIn _ _ _ => some 0x3c
  | .pbindOut _ _ _ => some 0x3c
  | .pdrain _ => some 0x3c
  | .pstat _ _ => some 0x3c
  | .pfree _ => some 0x3c
  | .mclaim _ _ => some 0x50
  | .mfree _ => some 0x51
  | .mzero _ => some 0x52
  | .mld _ _ _ => some 0x53
  | .mst _ _ _ _ _ => some 0x54
  | .mma _ _ _ _ _ => some 0x55
  | .mwait _ => some 0x56
  | .mstat _ _ => some 0x57
  | .cpy _ _ _ _ => some 0x58
  | .cpyt _ _ _ _ => some 0x59
  | .cpyr _ _ _ _ _ _ => some 0x5a
  | .cpyxOut _ _ _ _ => some 0x5b
  | .cpyxIn _ _ _ _ => some 0x5b
  | .cwait _ => some 0x5c
  | .cpoll _ _ => some 0x5c
  | .cabort _ => some 0x5c
  | .send _ _ _ => some 0x60
  | .sendT _ _ _ => some 0x60
  | .recv _ _ _ => some 0x61
  | .recvT _ _ _ => some 0x61
  | .sendv _ _ _ => some 0x62
  | .recvv _ _ _ => some 0x63
  | .sendb _ _ _ _ => some 0x64
  | .recvb _ _ _ _ => some 0x65
  | .select _ _ _ _ => some 0x66
  | .selectT _ _ _ _ => some 0x66
  | .probe _ _ => some 0x67
  | .chst _ _ => some 0x68
  | .chgive _ _ => some 0x69
  | .latarr _ _ => some 0x6a
  | .latdrop _ => some 0x6b
  | .latwait _ _ => some 0x6c
  | .spawn _ _ _ _ => some 0x6d
  | .exit => some 0x6e
  | .yield => some 0x6e
  | .rds _ _ => some 0x70
  | .wrs _ _ => some 0x70
  | .time _ => some 0x70
  | .rng _ => some 0x70
  | .rngskip _ => some 0x70
  | .fence _ => some 0x70
  | .chkpt => some 0x70
  | .trap _ => some 0x71
  | .brk _ => some 0x71
  | .eret _ => some 0x78
  | .slotrd _ _ => some 0x78
  | .slotwr _ _ _ => some 0x78
  | .slotctlThaw _ _ => some 0x78
  | .slotctlFreeze _ _ => some 0x78
  | .slotctlKill _ _ => some 0x78
  | .tlbinv _ => some 0x78
  | .idle => some 0x78
  | .mrds _ _ => some 0x78
  | .mwrs _ _ => some 0x78
  | .mwrsFqhd _ => some 0x78
  | .mwrsPtent _ => some 0x78
  | .mwrsHfq _ => some 0x78
  | .illegalEncoding _ => none
  | .networkStart => none
  | .poolEntryTakesSlot => none
  | .ageingThreshold => none
  | .offerArrives => none
  | .claimArrives => none
  | .confirmationRequestArrives => none
  | .grantArrives => none
  | .refusalArrives => none
  | .withdrawalArrives => none
  | .goArrives => none
  | .firstFlitArrives => none
  | .lastByteWritten => none
  | .acknowledgementArrives => none
  | .closeNoticeArrives => none
  | .deliveryFails => none
  | .deadlinePasses => none
  | .virtualChannelFreed => none
  | .stubForward => none
  | .messageReturnedToSource => none
  | .latchArrivalMsg => none
  | .latchDropMsg => none
  | .latchLeaveMsg => none
  | .phaseMulticastApplied => none
  | .deadboltProbeStart => none
  | .deadboltProbeMessage => none
  | .deadboltReport => none
  | .translationWalkComplete => none
  | .translationEntryApplied => none
  | .tlbinvComplete => none
  | .pageWaiterRelease => none
  | .matrixCommandComplete => none
  | .copyElement => none
  | .cpyxElementAck => none
  | .cpyxReadDataArrives => none
  | .cpyxWatchdogExpiry => none
  | .cpyxAbortTimeout => none
  | .cpyxPauseAckTimeout => none
  | .inputPumpPrefetch => none
  | .outputPumpWrite => none
  | .deferredFaultRecordWrite => none
  | .monitorWake => none
  | .monitorTimeout => none
  | .hfqAppendComplete => none
  | .fansResume => none
  | .fansNext => none
  | .fansKill => none
  | .freezeRequestAccepted => none
  | .tileQuiescent => none
  | .freezeRelease => none
  | .supplyOutOfRange => none
  | .supplyPowerdown => none
  | .regionOvercurrent => none
  | .powerEmergencyClear => none
  | .thermalEmergency => none
  | .thermalEmergencyClear => none
  | .coolantFlowLow => none
  | .coolantFlowPowerdown => none
  | .ckintExpiry => none
  | .ckminExpiry => none
  | .checkpointCommit => none
  | .stagingMergeComplete => none
  | .inputLogThreshold => none
  | .rollback => none
  | .replayEnd => none
  | .correctedError => none
  | .rotationStepStart => none
  | .rotationWarmComplete => none
  | .routerMapUpdate => none
  | .routerMapAck => none
  | .screeningComplete => none
  | .vtileLost => none
  | .reportWrite => none
  | .perstDeassert => none
  | .conventionalReset => none
  | .bdlgoWrite => none
  | .bundleCheckDone => none
  | .rampNeighbourHold => none
  | .rampWaitLimit => none
  | .regionRampComplete => none
  | .linkTrainingDone => none
  | .bistDone => none
  | .linkDegrade => none
  | .hostLinkDown => none
  | .flrPf => none
  | .flrVf => none
  | .tsetWrite => none
  | .ptmRequest => none
  | .regionReset => none
  | .regionResetDone => none
  | .monitorReload => none
  | .monitorReloadDone => none
  | .doorbellWrite => none
  | .load => none
  | .start => none
  | .stop => none
  | .switch => none
  | .evict => none
  | .waitFor => none
  | .completionRecordWrite => none
  | .translationWindowWrite => none
  | .partitionForm => none
  | .partitionDissolve => none
  | .partitionAdmit => none
  | .partitionChangeDone => none
  | .scrubComplete => none
  | .receiptSigned => none
  | .evictionRequest => none
  | .evictionAbort => none
  | .evictionFrozen => none
  | .evictionSendDone => none
  | .fabricDrained => none
  | .bladeUnlatch => none
  | .supplyAbsent60s => none
  | .nvCounterSave => none
  | .retirementLogCommit => none
  | .opticalDataCodeword => none
  | .opticalAckCodeword => none
  | .opticalIdleCodeword => none
  | .opticalTrainingCodeword => none
  | .opticalSignalLoss => none
  | .laneLockTimeout => none
  | .registerWrite => none
  | .supplyBackInRange => none
  | .coolantFlowRestored => none
  | .rampNeighbourRelease => none
  | .tileFailure => none
  | .stackLost => none
  | .wellPageLost => none
  | .checkpointPageStreamed => none
  | .linkLayerRetry => none
  | .evictionTargetWrite => none
  | .ieee1588SyncMessage => none

/-- The word of an instruction has its major opcode, and the pipe is that of the major; an event has no word. -/
def Statement (i : Instr) : Prop :=
  match of i with
  | some m => ∃ w, encode i = some w ∧ (fMajor w).toNat = m ∧ onAPipe w = (decide (m < 0x30) || decide (0x60 ≤ m))
  | none => encode i = none

theorem add (d a b : Reg) : Statement (.add d a b) := ⟨_, rfl, by simp, by simp [onAPipe]⟩
theorem sub (d a b : Reg) : Statement (.sub d a b) := ⟨_, rfl, by simp, by simp [onAPipe]⟩
theorem and (d a b : Reg) : Statement (.and d a b) := ⟨_, rfl, by simp, by simp [onAPipe]⟩
theorem or (d a b : Reg) : Statement (.or d a b) := ⟨_, rfl, by simp, by simp [onAPipe]⟩
theorem xor (d a b : Reg) : Statement (.xor d a b) := ⟨_, rfl, by simp, by simp [onAPipe]⟩
theorem andn (d a b : Reg) : Statement (.andn d a b) := ⟨_, rfl, by simp, by simp [onAPipe]⟩
theorem orn (d a b : Reg) : Statement (.orn d a b) := ⟨_, rfl, by simp, by simp [onAPipe]⟩
theorem shl (d a b : Reg) : Statement (.shl d a b) := ⟨_, rfl, by simp, by simp [onAPipe]⟩
theorem shr (d a b : Reg) : Statement (.shr d a b) := ⟨_, rfl, by simp, by simp [onAPipe]⟩
theorem sra (d a b : Reg) : Statement (.sra d a b) := ⟨_, rfl, by simp, by simp [onAPipe]⟩
theorem rol (d a b : Reg) : Statement (.rol d a b) := ⟨_, rfl, by simp, by simp [onAPipe]⟩
theorem ror (d a b : Reg) : Statement (.ror d a b) := ⟨_, rfl, by simp, by simp [onAPipe]⟩
theorem addw (d a b : Reg) : Statement (.addw d a b) := ⟨_, rfl, by simp, by simp [onAPipe]⟩
theorem subw (d a b : Reg) : Statement (.subw d a b) := ⟨_, rfl, by simp, by simp [onAPipe]⟩
theorem mulw (d a b : Reg) : Statement (.mulw d a b) := ⟨_, rfl, by simp, by simp [onAPipe]⟩
theorem shlw (d a b : Reg) : Statement (.shlw d a b) := ⟨_, rfl, by simp, by simp [onAPipe]⟩
theorem shrw (d a b : Reg) : Statement (.shrw d a b) := ⟨_, rfl, by simp, by simp [onAPipe]⟩
theorem sraw (d a b : Reg) : Statement (.sraw d a b) := ⟨_, rfl, by simp, by simp [onAPipe]⟩
theorem mul (d a b : Reg) : Statement (.mul d a b) := ⟨_, rfl, by simp, by simp [onAPipe]⟩
theorem mulh (d a b : Reg) : Statement (.mulh d a b) := ⟨_, rfl, by simp, by simp [onAPipe]⟩
theorem mulhn (d a b : Reg) : Statement (.mulhn d a b) := ⟨_, rfl, by simp, by simp [onAPipe]⟩
theorem div (d a b : Reg) : Statement (.div d a b) := ⟨_, rfl, by simp, by simp [onAPipe]⟩
theorem divn (d a b : Reg) : Statement (.divn d a b) := ⟨_, rfl, by simp, by simp [onAPipe]⟩
theorem rem (d a b : Reg) : Statement (.rem d a b) := ⟨_, rfl, by simp, by simp [onAPipe]⟩
theorem remn (d a b : Reg) : Statement (.remn d a b) := ⟨_, rfl, by simp, by simp [onAPipe]⟩
theorem min (d a b : Reg) : Statement (.min d a b) := ⟨_, rfl, by simp, by simp [onAPipe]⟩
theorem max (d a b : Reg) : Statement (.max d a b) := ⟨_, rfl, by simp, by simp [onAPipe]⟩
theorem minn (d a b : Reg) : Statement (.minn d a b) := ⟨_, rfl, by simp, by simp [onAPipe]⟩
theorem maxn (d a b : Reg) : Statement (.maxn d a b) := ⟨_, rfl, by simp, by simp [onAPipe]⟩
theorem slt (d a b : Reg) : Statement (.slt d a b) := ⟨_, rfl, by simp, by simp [onAPipe]⟩
theorem sltn (d a b : Reg) : Statement (.sltn d a b) := ⟨_, rfl, by simp, by simp [onAPipe]⟩
theorem seq (d a b : Reg) : Statement (.seq d a b) := ⟨_, rfl, by simp, by simp [onAPipe]⟩
theorem clz (d a : Reg) : Statement (.clz d a) := ⟨_, rfl, by simp, by simp [onAPipe]⟩
theorem ctz (d a : Reg) : Statement (.ctz d a) := ⟨_, rfl, by simp, by simp [onAPipe]⟩
theorem popc (d a : Reg) : Statement (.popc d a) := ⟨_, rfl, by simp, by simp [onAPipe]⟩
theorem brev (d a : Reg) : Statement (.brev d a) := ⟨_, rfl, by simp, by simp [onAPipe]⟩
theorem bswap (d a : Reg) : Statement (.bswap d a) := ⟨_, rfl, by simp, by simp [onAPipe]⟩
theorem sext (d a : Reg) (w : BitVec 6) : Statement (.sext d a w) := ⟨_, rfl, by simp, by simp [onAPipe]⟩
theorem zext (d a : Reg) (w : BitVec 6) : Statement (.zext d a w) := ⟨_, rfl, by simp, by simp [onAPipe]⟩
theorem csel (d a b c : Reg) : Statement (.csel d a b c) := ⟨_, rfl, by simp, by simp [onAPipe]⟩
theorem addi (d a : Reg) (i : BitVec 15) : Statement (.addi d a i) := ⟨_, rfl, by simp, by simp [onAPipe]⟩
theorem andi (d a : Reg) (i : BitVec 15) : Statement (.andi d a i) := ⟨_, rfl, by simp, by simp [onAPipe]⟩
theorem ori (d a : Reg) (i : BitVec 15) : Statement (.ori d a i) := ⟨_, rfl, by simp, by simp [onAPipe]⟩
theorem xori (d a : Reg) (i : BitVec 15) : Statement (.xori d a i) := ⟨_, rfl, by simp, by simp [onAPipe]⟩
theorem shli (d a : Reg) (n : BitVec 6) : Statement (.shli d a n) := ⟨_, rfl, by simp, by simp [onAPipe]⟩
theorem shri (d a : Reg) (n : BitVec 6) : Statement (.shri d a n) := ⟨_, rfl, by simp, by simp [onAPipe]⟩
theorem srai (d a : Reg) (n : BitVec 6) : Statement (.srai d a n) := ⟨_, rfl, by simp, by simp [onAPipe]⟩
theorem slti (d a : Reg) (i : BitVec 15) : Statement (.slti d a i) := ⟨_, rfl, by simp, by simp [onAPipe]⟩
theorem sltni (d a : Reg) (i : BitVec 15) : Statement (.sltni d a i) := ⟨_, rfl, by simp, by simp [onAPipe]⟩
theorem lui (d : Reg) (i : BitVec 20) : Statement (.lui d i) := ⟨_, rfl, by simp, by simp [onAPipe]⟩
theorem addpc (d : Reg) (i : BitVec 20) : Statement (.addpc d i) := ⟨_, rfl, by simp, by simp [onAPipe]⟩
theorem ldk (d : Reg) (k : BitVec 8) : Statement (.ldk d k) := ⟨_, rfl, by simp, by simp [onAPipe]⟩
theorem addk (d a : Reg) (k : BitVec 8) : Statement (.addk d a k) := ⟨_, rfl, by simp, by simp [onAPipe]⟩
theorem cbnd (d a b : Reg) : Statement (.cbnd d a b) := ⟨_, rfl, by simp, by simp [onAPipe]⟩
theorem cinc (d a b : Reg) : Statement (.cinc d a b) := ⟨_, rfl, by simp, by simp [onAPipe]⟩
theorem cperm (d a b : Reg) : Statement (.cperm d a b) := ⟨_, rfl, by simp, by simp [onAPipe]⟩
theorem cbase (d a : Reg) : Statement (.cbase d a) := ⟨_, rfl, by simp, by simp [onAPipe]⟩
theorem climit (d a : Reg) : Statement (.climit d a) := ⟨_, rfl, by simp, by simp [onAPipe]⟩
theorem cgetp (d a : Reg) : Statement (.cgetp d a) := ⟨_, rfl, by simp, by simp [onAPipe]⟩
theorem ctag (d a : Reg) : Statement (.ctag d a) := ⟨_, rfl, by simp, by simp [onAPipe]⟩
theorem cuntag (d a : Reg) : Statement (.cuntag d a) := ⟨_, rfl, by simp, by simp [onAPipe]⟩
theorem csub (d a b : Reg) : Statement (.csub d a b) := ⟨_, rfl, by simp, by simp [onAPipe]⟩
theorem cinci (d a : Reg) (i : BitVec 15) : Statement (.cinci d a i) := ⟨_, rfl, by simp, by simp [onAPipe]⟩
theorem beq (a b : Reg) (p : BitVec 15) : Statement (.beq a b p) := ⟨_, rfl, by simp, by simp [onAPipe]⟩
theorem bne (a b : Reg) (p : BitVec 15) : Statement (.bne a b p) := ⟨_, rfl, by simp, by simp [onAPipe]⟩
theorem blt (a b : Reg) (p : BitVec 15) : Statement (.blt a b p) := ⟨_, rfl, by simp, by simp [onAPipe]⟩
theorem bge (a b : Reg) (p : BitVec 15) : Statement (.bge a b p) := ⟨_, rfl, by simp, by simp [onAPipe]⟩
theorem bltn (a b : Reg) (p : BitVec 15) : Statement (.bltn a b p) := ⟨_, rfl, by simp, by simp [onAPipe]⟩
theorem bgen (a b : Reg) (p : BitVec 15) : Statement (.bgen a b p) := ⟨_, rfl, by simp, by simp [onAPipe]⟩
theorem bz (a : Reg) (p : BitVec 15) : Statement (.bz a p) := ⟨_, rfl, by simp, by simp [onAPipe]⟩
theorem bnz (a : Reg) (p : BitVec 15) : Statement (.bnz a p) := ⟨_, rfl, by simp, by simp [onAPipe]⟩
theorem jal (d : Reg) (p : BitVec 20) : Statement (.jal d p) := ⟨_, rfl, by simp, by simp [onAPipe]⟩
theorem jalr (d a : Reg) (i : BitVec 15) : Statement (.jalr d a i) := ⟨_, rfl, by simp, by simp [onAPipe]⟩
theorem ldb (d a : Reg) (i : BitVec 15) : Statement (.ldb d a i) := ⟨_, rfl, by simp, by simp [onAPipe]⟩
theorem ldbn (d a : Reg) (i : BitVec 15) : Statement (.ldbn d a i) := ⟨_, rfl, by simp, by simp [onAPipe]⟩
theorem ldh (d a : Reg) (i : BitVec 15) : Statement (.ldh d a i) := ⟨_, rfl, by simp, by simp [onAPipe]⟩
theorem ldhn (d a : Reg) (i : BitVec 15) : Statement (.ldhn d a i) := ⟨_, rfl, by simp, by simp [onAPipe]⟩
theorem ldw (d a : Reg) (i : BitVec 15) : Statement (.ldw d a i) := ⟨_, rfl, by simp, by simp [onAPipe]⟩
theorem ldwn (d a : Reg) (i : BitVec 15) : Statement (.ldwn d a i) := ⟨_, rfl, by simp, by simp [onAPipe]⟩
theorem ldd (d a : Reg) (i : BitVec 15) : Statement (.ldd d a i) := ⟨_, rfl, by simp, by simp [onAPipe]⟩
theorem ldc (d a : Reg) (i : BitVec 15) : Statement (.ldc d a i) := ⟨_, rfl, by simp, by simp [onAPipe]⟩
theorem stb (d a : Reg) (i : BitVec 15) : Statement (.stb d a i) := ⟨_, rfl, by simp, by simp [onAPipe]⟩
theorem sth (d a : Reg) (i : BitVec 15) : Statement (.sth d a i) := ⟨_, rfl, by simp, by simp [onAPipe]⟩
theorem stw (d a : Reg) (i : BitVec 15) : Statement (.stw d a i) := ⟨_, rfl, by simp, by simp [onAPipe]⟩
theorem std (d a : Reg) (i : BitVec 15) : Statement (.std d a i) := ⟨_, rfl, by simp, by simp [onAPipe]⟩
theorem stc (d a : Reg) (i : BitVec 15) : Statement (.stc d a i) := ⟨_, rfl, by simp, by simp [onAPipe]⟩
theorem amoadd (d a b : Reg) (z : Bool) : Statement (.amoadd d a b z) := ⟨_, rfl, by simp, by simp [onAPipe]⟩
theorem amoand (d a b : Reg) (z : Bool) : Statement (.amoand d a b z) := ⟨_, rfl, by simp, by simp [onAPipe]⟩
theorem amoor (d a b : Reg) (z : Bool) : Statement (.amoor d a b z) := ⟨_, rfl, by simp, by simp [onAPipe]⟩
theorem amoxor (d a b : Reg) (z : Bool) : Statement (.amoxor d a b z) := ⟨_, rfl, by simp, by simp [onAPipe]⟩
theorem amomin (d a b : Reg) (z : Bool) : Statement (.amomin d a b z) := ⟨_, rfl, by simp, by simp [onAPipe]⟩
theorem amomax (d a b : Reg) (z : Bool) : Statement (.amomax d a b z) := ⟨_, rfl, by simp, by simp [onAPipe]⟩
theorem amominn (d a b : Reg) (z : Bool) : Statement (.amominn d a b z) := ⟨_, rfl, by simp, by simp [onAPipe]⟩
theorem amomaxn (d a b : Reg) (z : Bool) : Statement (.amomaxn d a b z) := ⟨_, rfl, by simp, by simp [onAPipe]⟩
theorem amoswp (d a b : Reg) (z : Bool) : Statement (.amoswp d a b z) := ⟨_, rfl, by simp, by simp [onAPipe]⟩
theorem cas (d a b : Reg) (z : Bool) : Statement (.cas d a b z) := ⟨_, rfl, by simp, by simp [onAPipe]⟩
theorem fadd (d a b : Reg) (w : Bool) : Statement (.fadd d a b w) := ⟨_, rfl, by simp, by simp [onAPipe]⟩
theorem fsub (d a b : Reg) (w : Bool) : Statement (.fsub d a b w) := ⟨_, rfl, by simp, by simp [onAPipe]⟩
theorem fmul (d a b : Reg) (w : Bool) : Statement (.fmul d a b w) := ⟨_, rfl, by simp, by simp [onAPipe]⟩
theorem fdiv (d a b : Reg) (w : Bool) : Statement (.fdiv d a b w) := ⟨_, rfl, by simp, by simp [onAPipe]⟩
theorem fsqrt (d a : Reg) (w : Bool) : Statement (.fsqrt d a w) := ⟨_, rfl, by simp, by simp [onAPipe]⟩
theorem fma (d a b c : Reg) (w : Bool) : Statement (.fma d a b c w) := ⟨_, rfl, by simp, by simp [onAPipe]⟩
theorem fms (d a b c : Reg) (w : Bool) : Statement (.fms d a b c w) := ⟨_, rfl, by simp, by simp [onAPipe]⟩
theorem fnma (d a b c : Reg) (w : Bool) : Statement (.fnma d a b c w) := ⟨_, rfl, by simp, by simp [onAPipe]⟩
theorem fnms (d a b c : Reg) (w : Bool) : Statement (.fnms d a b c w) := ⟨_, rfl, by simp, by simp [onAPipe]⟩
theorem fmin (d a b : Reg) (w : Bool) : Statement (.fmin d a b w) := ⟨_, rfl, by simp, by simp [onAPipe]⟩
theorem fmax (d a b : Reg) (w : Bool) : Statement (.fmax d a b w) := ⟨_, rfl, by simp, by simp [onAPipe]⟩
theorem fsgnJ (d a b : Reg) (w : Bool) : Statement (.fsgnJ d a b w) := ⟨_, rfl, by simp, by simp [onAPipe]⟩
theorem fsgnN (d a b : Reg) (w : Bool) : Statement (.fsgnN d a b w) := ⟨_, rfl, by simp, by simp [onAPipe]⟩
theorem fsgnX (d a b : Reg) (w : Bool) : Statement (.fsgnX d a b w) := ⟨_, rfl, by simp, by simp [onAPipe]⟩
theorem fclass (d a : Reg) (w : Bool) : Statement (.fclass d a w) := ⟨_, rfl, by simp, by simp [onAPipe]⟩
theorem fcmpEq (d a b : Reg) (w : Bool) : Statement (.fcmpEq d a b w) := ⟨_, rfl, by simp, by simp [onAPipe]⟩
theorem fcmpLt (d a b : Reg) (w : Bool) : Statement (.fcmpLt d a b w) := ⟨_, rfl, by simp, by simp [onAPipe]⟩
theorem fcmpLe (d a b : Reg) (w : Bool) : Statement (.fcmpLe d a b w) := ⟨_, rfl, by simp, by simp [onAPipe]⟩
theorem fcvt (d a : Reg) (t s : LaneTy) (r : Bool) : Statement (.fcvt d a t s r) := ⟨_, rfl, by simp, by simp [onAPipe]⟩
theorem fmvk (d : Reg) (k : BitVec 8) (w : Bool) : Statement (.fmvk d k w) := ⟨_, rfl, by simp, by simp [onAPipe]⟩
theorem vadd (d a b : Reg) (m : MReg) (t : LaneTy) : Statement (.vadd d a b m t) := ⟨_, rfl, by simp, by simp [onAPipe]⟩
theorem vsub (d a b : Reg) (m : MReg) (t : LaneTy) : Statement (.vsub d a b m t) := ⟨_, rfl, by simp, by simp [onAPipe]⟩
theorem vmul (d a b : Reg) (m : MReg) (t : LaneTy) : Statement (.vmul d a b m t) := ⟨_, rfl, by simp, by simp [onAPipe]⟩
theorem vfma (d a b : Reg) (m : MReg) (t : LaneTy) : Statement (.vfma d a b m t) := ⟨_, rfl, by simp, by simp [onAPipe]⟩
theorem vfms (d a b : Reg) (m : MReg) (t : LaneTy) : Statement (.vfms d a b m t) := ⟨_, rfl, by simp, by simp [onAPipe]⟩
theorem vmin (d a b : Reg) (m : MReg) (t : LaneTy) : Statement (.vmin d a b m t) := ⟨_, rfl, by simp, by simp [onAPipe]⟩
theorem vmax (d a b : Reg) (m : MReg) (t : LaneTy) : Statement (.vmax d a b m t) := ⟨_, rfl, by simp, by simp [onAPipe]⟩
theorem vdot (d a b : Reg) (m : MReg) (t : LaneTy) : Statement (.vdot d a b m t) := ⟨_, rfl, by simp, by simp [onAPipe]⟩
theorem vand (d a b : Reg) (m : MReg) (t : LaneTy) : Statement (.vand d a b m t) := ⟨_, rfl, by simp, by simp [onAPipe]⟩
theorem vor (d a b : Reg) (m : MReg) (t : LaneTy) : Statement (.vor d a b m t) := ⟨_, rfl, by simp, by simp [onAPipe]⟩
theorem vxor (d a b : Reg) (m : MReg) (t : LaneTy) : Statement (.vxor d a b m t) := ⟨_, rfl, by simp, by simp [onAPipe]⟩
theorem vandn (d a b : Reg) (m : MReg) (t : LaneTy) : Statement (.vandn d a b m t) := ⟨_, rfl, by simp, by simp [onAPipe]⟩
theorem vshl (d a b : Reg) (m : MReg) (t : LaneTy) : Statement (.vshl d a b m t) := ⟨_, rfl, by simp, by simp [onAPipe]⟩
theorem vshr (d a b : Reg) (m : MReg) (t : LaneTy) : Statement (.vshr d a b m t) := ⟨_, rfl, by simp, by simp [onAPipe]⟩
theorem vsra (d a b : Reg) (m : MReg) (t : LaneTy) : Statement (.vsra d a b m t) := ⟨_, rfl, by simp, by simp [onAPipe]⟩
theorem vsel (d a b : Reg) (m : MReg) (t : LaneTy) : Statement (.vsel d a b m t) := ⟨_, rfl, by simp, by simp [onAPipe]⟩
theorem vabs (d a : Reg) (m : MReg) (t : LaneTy) : Statement (.vabs d a m t) := ⟨_, rfl, by simp, by simp [onAPipe]⟩
theorem vneg (d a : Reg) (m : MReg) (t : LaneTy) : Statement (.vneg d a m t) := ⟨_, rfl, by simp, by simp [onAPipe]⟩
theorem vexp2 (d a : Reg) (m : MReg) (t : LaneTy) : Statement (.vexp2 d a m t) := ⟨_, rfl, by simp, by simp [onAPipe]⟩
theorem vlog2 (d a : Reg) (m : MReg) (t : LaneTy) : Statement (.vlog2 d a m t) := ⟨_, rfl, by simp, by simp [onAPipe]⟩
theorem vrcp (d a : Reg) (m : MReg) (t : LaneTy) : Statement (.vrcp d a m t) := ⟨_, rfl, by simp, by simp [onAPipe]⟩
theorem vrsq (d a : Reg) (m : MReg) (t : LaneTy) : Statement (.vrsq d a m t) := ⟨_, rfl, by simp, by simp [onAPipe]⟩
theorem vsqrt (d a : Reg) (m : MReg) (t : LaneTy) : Statement (.vsqrt d a m t) := ⟨_, rfl, by simp, by simp [onAPipe]⟩
theorem vrng (d : Reg) (m : MReg) (t : LaneTy) : Statement (.vrng d m t) := ⟨_, rfl, by simp, by simp [onAPipe]⟩
theorem vcmpEq (d : MReg) (a b : Reg) (m : MReg) (t : LaneTy) : Statement (.vcmpEq d a b m t) := ⟨_, rfl, by simp, by simp [onAPipe]⟩
theorem vcmpNe (d : MReg) (a b : Reg) (m : MReg) (t : LaneTy) : Statement (.vcmpNe d a b m t) := ⟨_, rfl, by simp, by simp [onAPipe]⟩
theorem vcmpLt (d : MReg) (a b : Reg) (m : MReg) (t : LaneTy) : Statement (.vcmpLt d a b m t) := ⟨_, rfl, by simp, by simp [onAPipe]⟩
theorem vcmpLe (d : MReg) (a b : Reg) (m : MReg) (t : LaneTy) : Statement (.vcmpLe d a b m t) := ⟨_, rfl, by simp, by simp [onAPipe]⟩
theorem vredSum (d a : Reg) (m : MReg) (t : LaneTy) : Statement (.vredSum d a m t) := ⟨_, rfl, by simp, by simp [onAPipe]⟩
theorem vredMin (d a : Reg) (m : MReg) (t : LaneTy) : Statement (.vredMin d a m t) := ⟨_, rfl, by simp, by simp [onAPipe]⟩
theorem vredMax (d a : Reg) (m : MReg) (t : LaneTy) : Statement (.vredMax d a m t) := ⟨_, rfl, by simp, by simp [onAPipe]⟩
theorem vld (d a : Reg) (o : BitVec 5) (m : MReg) (t : LaneTy) : Statement (.vld d a o m t) := ⟨_, rfl, by simp, by simp [onAPipe]⟩
theorem vst (d a : Reg) (o : BitVec 5) (m : MReg) (t : LaneTy) : Statement (.vst d a o m t) := ⟨_, rfl, by simp, by simp [onAPipe]⟩
theorem vlds (d a b : Reg) (m : MReg) (t : LaneTy) : Statement (.vlds d a b m t) := ⟨_, rfl, by simp, by simp [onAPipe]⟩
theorem vsts (d a b : Reg) (m : MReg) (t : LaneTy) : Statement (.vsts d a b m t) := ⟨_, rfl, by simp, by simp [onAPipe]⟩
theorem vgat (d a b : Reg) (m : MReg) (t : LaneTy) : Statement (.vgat d a b m t) := ⟨_, rfl, by simp, by simp [onAPipe]⟩
theorem vsct (d a b : Reg) (m : MReg) (t : LaneTy) : Statement (.vsct d a b m t) := ⟨_, rfl, by simp, by simp [onAPipe]⟩
theorem vbcast (d a : Reg) (m : MReg) (t : LaneTy) : Statement (.vbcast d a m t) := ⟨_, rfl, by simp, by simp [onAPipe]⟩
theorem vext (d a b : Reg) (t : LaneTy) : Statement (.vext d a b t) := ⟨_, rfl, by simp, by simp [onAPipe]⟩
theorem vins (d a b : Reg) (m : MReg) (t : LaneTy) : Statement (.vins d a b m t) := ⟨_, rfl, by simp, by simp [onAPipe]⟩
theorem vperm (d a b : Reg) (m : MReg) (t : LaneTy) : Statement (.vperm d a b m t) := ⟨_, rfl, by simp, by simp [onAPipe]⟩
theorem vcvt (d a : Reg) (m : MReg) (t s : LaneTy) (r : Bool) : Statement (.vcvt d a m t s r) := ⟨_, rfl, by simp, by simp [onAPipe]⟩
theorem vmxq (d a : Reg) (t : LaneTy) : Statement (.vmxq d a t) := ⟨_, rfl, by simp, by simp [onAPipe]⟩
theorem vmxd (d b : Reg) (t : LaneTy) : Statement (.vmxd d b t) := ⟨_, rfl, by simp, by simp [onAPipe]⟩
theorem mand (d a b : MReg) : Statement (.mand d a b) := ⟨_, rfl, by simp, by simp [onAPipe]⟩
theorem mor (d a b : MReg) : Statement (.mor d a b) := ⟨_, rfl, by simp, by simp [onAPipe]⟩
theorem mxor (d a b : MReg) : Statement (.mxor d a b) := ⟨_, rfl, by simp, by simp [onAPipe]⟩
theorem mnot (d a : MReg) : Statement (.mnot d a) := ⟨_, rfl, by simp, by simp [onAPipe]⟩
theorem mpop (d : Reg) (a : MReg) : Statement (.mpop d a) := ⟨_, rfl, by simp, by simp [onAPipe]⟩
theorem mfst (d : Reg) (a : MReg) : Statement (.mfst d a) := ⟨_, rfl, by simp, by simp [onAPipe]⟩
theorem mset (d : MReg) (a : Reg) : Statement (.mset d a) := ⟨_, rfl, by simp, by simp [onAPipe]⟩
theorem mget (d : Reg) (a : MReg) : Statement (.mget d a) := ⟨_, rfl, by simp, by simp [onAPipe]⟩
theorem rep (a : Reg) (k : BitVec 3) : Statement (.rep a k) := ⟨_, rfl, by simp, by simp [onAPipe]⟩
theorem pbindIn (a b : Reg) (p : BitVec 2) : Statement (.pbindIn a b p) := ⟨_, rfl, by simp, by simp [onAPipe]⟩
theorem pbindOut (a b : Reg) (p : BitVec 2) : Statement (.pbindOut a b p) := ⟨_, rfl, by simp, by simp [onAPipe]⟩
theorem pdrain (p : BitVec 2) : Statement (.pdrain p) := ⟨_, rfl, by simp, by simp [onAPipe]⟩
theorem pstat (d : Reg) (p : BitVec 2) : Statement (.pstat d p) := ⟨_, rfl, by simp, by simp [onAPipe]⟩
theorem pfree (p : BitVec 2) : Statement (.pfree p) := ⟨_, rfl, by simp, by simp [onAPipe]⟩
theorem mclaim (c : BitVec 3) (h : AccShape) : Statement (.mclaim c h) := ⟨_, rfl, by simp, by simp [onAPipe]⟩
theorem mfree (c : BitVec 3) : Statement (.mfree c) := ⟨_, rfl, by simp, by simp [onAPipe]⟩
theorem mzero (c : BitVec 3) : Statement (.mzero c) := ⟨_, rfl, by simp, by simp [onAPipe]⟩
theorem mld (c : BitVec 3) (a b : Reg) : Statement (.mld c a b) := ⟨_, rfl, by simp, by simp [onAPipe]⟩
theorem mst (c : BitVec 3) (a b x : Reg) (t : BitVec 5) : Statement (.mst c a b x t) := ⟨_, rfl, by simp, by simp [onAPipe]⟩
theorem mma (c : BitVec 3) (a b x : Reg) (t : BitVec 5) : Statement (.mma c a b x t) := ⟨_, rfl, by simp, by simp [onAPipe]⟩
theorem mwait (c : BitVec 3) : Statement (.mwait c) := ⟨_, rfl, by simp, by simp [onAPipe]⟩
theorem mstat (c : BitVec 3) (d : Reg) : Statement (.mstat c d) := ⟨_, rfl, by simp, by simp [onAPipe]⟩
theorem cpy (d a b c : Reg) : Statement (.cpy d a b c) := ⟨_, rfl, by simp, by simp [onAPipe]⟩
theorem cpyt (d a b c : Reg) : Statement (.cpyt d a b c) := ⟨_, rfl, by simp, by simp [onAPipe]⟩
theorem cpyr (d a b c : Reg) (t o : BitVec 2) : Statement (.cpyr d a b c t o) := ⟨_, rfl, by simp, by simp [onAPipe]⟩
theorem cpyxOut (d a b c : Reg) : Statement (.cpyxOut d a b c) := ⟨_, rfl, by simp, by simp [onAPipe]⟩
theorem cpyxIn (d a b c : Reg) : Statement (.cpyxIn d a b c) := ⟨_, rfl, by simp, by simp [onAPipe]⟩
theorem cwait (a : Reg) : Statement (.cwait a) := ⟨_, rfl, by simp, by simp [onAPipe]⟩
theorem cpoll (d a : Reg) : Statement (.cpoll d a) := ⟨_, rfl, by simp, by simp [onAPipe]⟩
theorem cabort (a : Reg) : Statement (.cabort a) := ⟨_, rfl, by simp, by simp [onAPipe]⟩
theorem send (d : Reg) (e : BitVec 8) (s : Reg) : Statement (.send d e s) := ⟨_, rfl, by simp, by simp [onAPipe]⟩
theorem sendT (d : Reg) (e : BitVec 8) (s : Reg) : Statement (.sendT d e s) := ⟨_, rfl, by simp, by simp [onAPipe]⟩
theorem recv (d : Reg) (e : BitVec 8) (s : Reg) : Statement (.recv d e s) := ⟨_, rfl, by simp, by simp [onAPipe]⟩
theorem recvT (d : Reg) (e : BitVec 8) (s : Reg) : Statement (.recvT d e s) := ⟨_, rfl, by simp, by simp [onAPipe]⟩
theorem sendv (d : Reg) (e : BitVec 8) (s : Reg) : Statement (.sendv d e s) := ⟨_, rfl, by simp, by simp [onAPipe]⟩
theorem recvv (d : Reg) (e : BitVec 8) (s : Reg) : Statement (.recvv d e s) := ⟨_, rfl, by simp, by simp [onAPipe]⟩
theorem sendb (d : Reg) (e : BitVec 8) (s x : Reg) : Statement (.sendb d e s x) := ⟨_, rfl, by simp, by simp [onAPipe]⟩
theorem recvb (d : Reg) (e : BitVec 8) (s x : Reg) : Statement (.recvb d e s x) := ⟨_, rfl, by simp, by simp [onAPipe]⟩
theorem select (d : Reg) (b : BitVec 2) (s x : Reg) : Statement (.select d b s x) := ⟨_, rfl, by simp, by simp [onAPipe]⟩
theorem selectT (d : Reg) (b : BitVec 2) (s x : Reg) : Statement (.selectT d b s x) := ⟨_, rfl, by simp, by simp [onAPipe]⟩
theorem probe (d : Reg) (e : BitVec 8) : Statement (.probe d e) := ⟨_, rfl, by simp, by simp [onAPipe]⟩
theorem chst (d : Reg) (e : BitVec 8) : Statement (.chst d e) := ⟨_, rfl, by simp, by simp [onAPipe]⟩
theorem chgive (d : Reg) (e : BitVec 8) : Statement (.chgive d e) := ⟨_, rfl, by simp, by simp [onAPipe]⟩
theorem latarr (d : Reg) (e : BitVec 8) : Statement (.latarr d e) := ⟨_, rfl, by simp, by simp [onAPipe]⟩
theorem latdrop (e : BitVec 8) : Statement (.latdrop e) := ⟨_, rfl, by simp, by simp [onAPipe]⟩
theorem latwait (d : Reg) (e : BitVec 8) : Statement (.latwait d e) := ⟨_, rfl, by simp, by simp [onAPipe]⟩
theorem spawn (d a b s : Reg) : Statement (.spawn d a b s) := ⟨_, rfl, by simp, by simp [onAPipe]⟩
theorem exit : Statement (.exit) := ⟨_, rfl, by simp, by simp [onAPipe]⟩
theorem yield : Statement (.yield) := ⟨_, rfl, by simp, by simp [onAPipe]⟩
theorem rds (d : Reg) (w : BitVec 5) : Statement (.rds d w) := ⟨_, rfl, by simp, by simp [onAPipe]⟩
theorem wrs (a : Reg) (w : BitVec 5) : Statement (.wrs a w) := ⟨_, rfl, by simp, by simp [onAPipe]⟩
theorem time (d : Reg) : Statement (.time d) := ⟨_, rfl, by simp, by simp [onAPipe]⟩
theorem rng (d : Reg) : Statement (.rng d) := ⟨_, rfl, by simp, by simp [onAPipe]⟩
theorem rngskip (a : Reg) : Statement (.rngskip a) := ⟨_, rfl, by simp, by simp [onAPipe]⟩
theorem fence (f : BitVec 2) : Statement (.fence f) := ⟨_, rfl, by simp, by simp [onAPipe]⟩
theorem chkpt : Statement (.chkpt) := ⟨_, rfl, by simp, by simp [onAPipe]⟩
theorem trap (i : BitVec 15) : Statement (.trap i) := ⟨_, rfl, by simp [fMajor_trap], by simp [onAPipe, fMajor_trap]⟩
theorem brk (i : BitVec 15) : Statement (.brk i) := ⟨_, rfl, by simp [fMajor_trap], by simp [onAPipe, fMajor_trap]⟩
theorem eret (a : Reg) : Statement (.eret a) := ⟨_, rfl, by simp, by simp [onAPipe]⟩
theorem slotrd (d a : Reg) : Statement (.slotrd d a) := ⟨_, rfl, by simp, by simp [onAPipe]⟩
theorem slotwr (d a b : Reg) : Statement (.slotwr d a b) := ⟨_, rfl, by simp, by simp [onAPipe]⟩
theorem slotctlThaw (a b : Reg) : Statement (.slotctlThaw a b) := ⟨_, rfl, by simp, by simp [onAPipe]⟩
theorem slotctlFreeze (a b : Reg) : Statement (.slotctlFreeze a b) := ⟨_, rfl, by simp, by simp [onAPipe]⟩
theorem slotctlKill (a b : Reg) : Statement (.slotctlKill a b) := ⟨_, rfl, by simp, by simp [onAPipe]⟩
theorem tlbinv (a : Reg) : Statement (.tlbinv a) := ⟨_, rfl, by simp, by simp [onAPipe]⟩
theorem idle : Statement (.idle) := ⟨_, rfl, by simp, by simp [onAPipe]⟩
theorem mrds (d : Reg) (w : BitVec 5) : Statement (.mrds d w) := ⟨_, rfl, by simp, by simp [onAPipe]⟩
theorem mwrs (a : Reg) (w : BitVec 5) : Statement (.mwrs a w) := ⟨_, rfl, by simp, by simp [onAPipe]⟩
theorem mwrsFqhd (a : Reg) : Statement (.mwrsFqhd a) := ⟨_, rfl, by simp, by simp [onAPipe]⟩
theorem mwrsPtent (a : Reg) : Statement (.mwrsPtent a) := ⟨_, rfl, by simp, by simp [onAPipe]⟩
theorem mwrsHfq (a : Reg) : Statement (.mwrsHfq a) := ⟨_, rfl, by simp, by simp [onAPipe]⟩
theorem illegalEncoding (w : BitVec 32) : Statement (.illegalEncoding w) := rfl
theorem networkStart : Statement (.networkStart) := rfl
theorem poolEntryTakesSlot : Statement (.poolEntryTakesSlot) := rfl
theorem ageingThreshold : Statement (.ageingThreshold) := rfl
theorem offerArrives : Statement (.offerArrives) := rfl
theorem claimArrives : Statement (.claimArrives) := rfl
theorem confirmationRequestArrives : Statement (.confirmationRequestArrives) := rfl
theorem grantArrives : Statement (.grantArrives) := rfl
theorem refusalArrives : Statement (.refusalArrives) := rfl
theorem withdrawalArrives : Statement (.withdrawalArrives) := rfl
theorem goArrives : Statement (.goArrives) := rfl
theorem firstFlitArrives : Statement (.firstFlitArrives) := rfl
theorem lastByteWritten : Statement (.lastByteWritten) := rfl
theorem acknowledgementArrives : Statement (.acknowledgementArrives) := rfl
theorem closeNoticeArrives : Statement (.closeNoticeArrives) := rfl
theorem deliveryFails : Statement (.deliveryFails) := rfl
theorem deadlinePasses : Statement (.deadlinePasses) := rfl
theorem virtualChannelFreed : Statement (.virtualChannelFreed) := rfl
theorem stubForward : Statement (.stubForward) := rfl
theorem messageReturnedToSource : Statement (.messageReturnedToSource) := rfl
theorem latchArrivalMsg : Statement (.latchArrivalMsg) := rfl
theorem latchDropMsg : Statement (.latchDropMsg) := rfl
theorem latchLeaveMsg : Statement (.latchLeaveMsg) := rfl
theorem phaseMulticastApplied : Statement (.phaseMulticastApplied) := rfl
theorem deadboltProbeStart : Statement (.deadboltProbeStart) := rfl
theorem deadboltProbeMessage : Statement (.deadboltProbeMessage) := rfl
theorem deadboltReport : Statement (.deadboltReport) := rfl
theorem translationWalkComplete : Statement (.translationWalkComplete) := rfl
theorem translationEntryApplied : Statement (.translationEntryApplied) := rfl
theorem tlbinvComplete : Statement (.tlbinvComplete) := rfl
theorem pageWaiterRelease : Statement (.pageWaiterRelease) := rfl
theorem matrixCommandComplete : Statement (.matrixCommandComplete) := rfl
theorem copyElement : Statement (.copyElement) := rfl
theorem cpyxElementAck : Statement (.cpyxElementAck) := rfl
theorem cpyxReadDataArrives : Statement (.cpyxReadDataArrives) := rfl
theorem cpyxWatchdogExpiry : Statement (.cpyxWatchdogExpiry) := rfl
theorem cpyxAbortTimeout : Statement (.cpyxAbortTimeout) := rfl
theorem cpyxPauseAckTimeout : Statement (.cpyxPauseAckTimeout) := rfl
theorem inputPumpPrefetch : Statement (.inputPumpPrefetch) := rfl
theorem outputPumpWrite : Statement (.outputPumpWrite) := rfl
theorem deferredFaultRecordWrite : Statement (.deferredFaultRecordWrite) := rfl
theorem monitorWake : Statement (.monitorWake) := rfl
theorem monitorTimeout : Statement (.monitorTimeout) := rfl
theorem hfqAppendComplete : Statement (.hfqAppendComplete) := rfl
theorem fansResume : Statement (.fansResume) := rfl
theorem fansNext : Statement (.fansNext) := rfl
theorem fansKill : Statement (.fansKill) := rfl
theorem freezeRequestAccepted : Statement (.freezeRequestAccepted) := rfl
theorem tileQuiescent : Statement (.tileQuiescent) := rfl
theorem freezeRelease : Statement (.freezeRelease) := rfl
theorem supplyOutOfRange : Statement (.supplyOutOfRange) := rfl
theorem supplyPowerdown : Statement (.supplyPowerdown) := rfl
theorem regionOvercurrent : Statement (.regionOvercurrent) := rfl
theorem powerEmergencyClear : Statement (.powerEmergencyClear) := rfl
theorem thermalEmergency : Statement (.thermalEmergency) := rfl
theorem thermalEmergencyClear : Statement (.thermalEmergencyClear) := rfl
theorem coolantFlowLow : Statement (.coolantFlowLow) := rfl
theorem coolantFlowPowerdown : Statement (.coolantFlowPowerdown) := rfl
theorem ckintExpiry : Statement (.ckintExpiry) := rfl
theorem ckminExpiry : Statement (.ckminExpiry) := rfl
theorem checkpointCommit : Statement (.checkpointCommit) := rfl
theorem stagingMergeComplete : Statement (.stagingMergeComplete) := rfl
theorem inputLogThreshold : Statement (.inputLogThreshold) := rfl
theorem rollback : Statement (.rollback) := rfl
theorem replayEnd : Statement (.replayEnd) := rfl
theorem correctedError : Statement (.correctedError) := rfl
theorem rotationStepStart : Statement (.rotationStepStart) := rfl
theorem rotationWarmComplete : Statement (.rotationWarmComplete) := rfl
theorem routerMapUpdate : Statement (.routerMapUpdate) := rfl
theorem routerMapAck : Statement (.routerMapAck) := rfl
theorem screeningComplete : Statement (.screeningComplete) := rfl
theorem vtileLost : Statement (.vtileLost) := rfl
theorem reportWrite : Statement (.reportWrite) := rfl
theorem perstDeassert : Statement (.perstDeassert) := rfl
theorem conventionalReset : Statement (.conventionalReset) := rfl
theorem bdlgoWrite : Statement (.bdlgoWrite) := rfl
theorem bundleCheckDone : Statement (.bundleCheckDone) := rfl
theorem rampNeighbourHold : Statement (.rampNeighbourHold) := rfl
theorem rampWaitLimit : Statement (.rampWaitLimit) := rfl
theorem regionRampComplete : Statement (.regionRampComplete) := rfl
theorem linkTrainingDone : Statement (.linkTrainingDone) := rfl
theorem bistDone : Statement (.bistDone) := rfl
theorem linkDegrade : Statement (.linkDegrade) := rfl
theorem hostLinkDown : Statement (.hostLinkDown) := rfl
theorem flrPf : Statement (.flrPf) := rfl
theorem flrVf : Statement (.flrVf) := rfl
theorem tsetWrite : Statement (.tsetWrite) := rfl
theorem ptmRequest : Statement (.ptmRequest) := rfl
theorem regionReset : Statement (.regionReset) := rfl
theorem regionResetDone : Statement (.regionResetDone) := rfl
theorem monitorReload : Statement (.monitorReload) := rfl
theorem monitorReloadDone : Statement (.monitorReloadDone) := rfl
theorem doorbellWrite : Statement (.doorbellWrite) := rfl
theorem load : Statement (.load) := rfl
theorem start : Statement (.start) := rfl
theorem stop : Statement (.stop) := rfl
theorem switch : Statement (.switch) := rfl
theorem evict : Statement (.evict) := rfl
theorem waitFor : Statement (.waitFor) := rfl
theorem completionRecordWrite : Statement (.completionRecordWrite) := rfl
theorem translationWindowWrite : Statement (.translationWindowWrite) := rfl
theorem partitionForm : Statement (.partitionForm) := rfl
theorem partitionDissolve : Statement (.partitionDissolve) := rfl
theorem partitionAdmit : Statement (.partitionAdmit) := rfl
theorem partitionChangeDone : Statement (.partitionChangeDone) := rfl
theorem scrubComplete : Statement (.scrubComplete) := rfl
theorem receiptSigned : Statement (.receiptSigned) := rfl
theorem evictionRequest : Statement (.evictionRequest) := rfl
theorem evictionAbort : Statement (.evictionAbort) := rfl
theorem evictionFrozen : Statement (.evictionFrozen) := rfl
theorem evictionSendDone : Statement (.evictionSendDone) := rfl
theorem fabricDrained : Statement (.fabricDrained) := rfl
theorem bladeUnlatch : Statement (.bladeUnlatch) := rfl
theorem supplyAbsent60s : Statement (.supplyAbsent60s) := rfl
theorem nvCounterSave : Statement (.nvCounterSave) := rfl
theorem retirementLogCommit : Statement (.retirementLogCommit) := rfl
theorem opticalDataCodeword : Statement (.opticalDataCodeword) := rfl
theorem opticalAckCodeword : Statement (.opticalAckCodeword) := rfl
theorem opticalIdleCodeword : Statement (.opticalIdleCodeword) := rfl
theorem opticalTrainingCodeword : Statement (.opticalTrainingCodeword) := rfl
theorem opticalSignalLoss : Statement (.opticalSignalLoss) := rfl
theorem laneLockTimeout : Statement (.laneLockTimeout) := rfl
theorem registerWrite : Statement (.registerWrite) := rfl
theorem supplyBackInRange : Statement (.supplyBackInRange) := rfl
theorem coolantFlowRestored : Statement (.coolantFlowRestored) := rfl
theorem rampNeighbourRelease : Statement (.rampNeighbourRelease) := rfl
theorem tileFailure : Statement (.tileFailure) := rfl
theorem stackLost : Statement (.stackLost) := rfl
theorem wellPageLost : Statement (.wellPageLost) := rfl
theorem checkpointPageStreamed : Statement (.checkpointPageStreamed) := rfl
theorem linkLayerRetry : Statement (.linkLayerRetry) := rfl
theorem evictionTargetWrite : Statement (.evictionTargetWrite) := rfl
theorem ieee1588SyncMessage : Statement (.ieee1588SyncMessage) := rfl

end Sys2Proof.Laws.MajorOpcode
end

