-- ==== Sys2Proof/Laws/Vector.lean ====
section
/-! SUPPORT. Lanes of a register, writes of v registers, and what a lane instruction does. -/

namespace Sys2Proof.Machine

/-! Lanes. -/

theorem packNat_lt (w : Nat) (l : List Nat) : packNat w l < 2 ^ (w * l.length) := by
  induction l with
  | nil => simp [packNat]
  | cons x r ih =>
    simp only [packNat, List.length_cons, Nat.mul_add, Nat.mul_one, Nat.pow_add]
    have h1 : x % 2 ^ w < 2 ^ w := Nat.mod_lt _ (Nat.two_pow_pos w)
    have h2 : 2 ^ w * packNat w r + 2 ^ w ≤ 2 ^ w * 2 ^ (w * r.length) := by
      rw [← Nat.mul_succ]; exact Nat.mul_le_mul_left _ ih
    rw [Nat.mul_comm (2 ^ (w * r.length))]
    omega

theorem packNat_lane (w : Nat) (l : List Nat) (i : Nat) :
    packNat w l / 2 ^ (w * i) % 2 ^ w = l.getD i 0 % 2 ^ w := by
  induction l generalizing i with
  | nil => simp [packNat]
  | cons x r ih =>
    cases i with
    | zero =>
      simp only [packNat, Nat.mul_zero, Nat.pow_zero, Nat.div_one, Nat.add_mul_mod_self_left, Nat.mod_mod,
        List.getD_cons_zero]
    | succ i =>
      simp only [packNat, List.getD_cons_succ]
      rw [Nat.mul_add, Nat.mul_one, Nat.add_comm (w * i), Nat.pow_add, ← Nat.div_div_eq_div_mul,
        Nat.add_mul_div_left _ _ (Nat.two_pow_pos w), Nat.div_eq_of_lt (Nat.mod_lt _ (Nat.two_pow_pos w)), Nat.zero_add]
      exact ih i

/-- A lane of a packed register. -/
theorem lane_pack (w : Nat) (l : List Nat) (i : Nat) (h : w * l.length ≤ 512) :
    lane (pack w l) w i = l.getD i 0 % 2 ^ w := by
  have hl : packNat w l < 2 ^ 512 := Nat.lt_of_lt_of_le (packNat_lt w l) (Nat.pow_le_pow_right (by decide) h)
  simp only [lane, pack, BitVec.extractLsb'_toNat, BitVec.toNat_ofNat, Nat.shiftRight_eq_div_pow]
  rw [Nat.mod_eq_of_lt hl]
  exact packNat_lane w l i

theorem lane_lt (v : Vec) (w i : Nat) : lane v w i < 2 ^ w := (v.extractLsb' (w * i) w).isLt

theorem lanes_fit (w : Nat) : w * (512 / w) ≤ 512 := Nat.mul_div_le 512 w

/-- The lanes that a lane operation leaves. -/
theorem lane_mergeLanes (m : Word) (w : Nat) (old : Vec) (f : Nat → Nat) (i : Nat) (h : i < 512 / w) :
    lane (mergeLanes m w old f) w i = if enabled m w i then f i % 2 ^ w else lane old w i := by
  rw [mergeLanes, lane_pack _ _ _ (by simpa using lanes_fit w)]
  have e : ((List.range (512 / w)).map (fun i => if enabled m w i then f i else lane old w i)).getD i 0
      = if enabled m w i then f i else lane old w i := by
    simp [List.getD, h]
  rw [e]
  split
  · rfl
  · exact Nat.mod_eq_of_lt (lane_lt _ _ _)

theorem laneFlags_aux (m : Word) (w : Nat) (f : Nat → FFlags) (l : List Nat) (a : FFlags) (b : Nat) :
    (l.foldl (fun acc i => if enabled m w i then acc ||| f i else acc) a).getLsbD b = true ↔
      a.getLsbD b = true ∨ ∃ j ∈ l, enabled m w j = true ∧ (f j).getLsbD b = true := by
  induction l generalizing a with
  | nil => simp
  | cons x r ih =>
    rw [List.foldl_cons, ih]
    by_cases h : enabled m w x = true
    · simp only [h, if_true, BitVec.getLsbD_or, Bool.or_eq_true, List.mem_cons]
      constructor
      · rintro ((h1 | h1) | ⟨j, hj, hk⟩)
        · exact .inl h1
        · exact .inr ⟨x, .inl rfl, h, h1⟩
        · exact .inr ⟨j, .inr hj, hk⟩
      · rintro (h1 | ⟨j, rfl | hj, hk⟩)
        · exact .inl (.inl h1)
        · exact .inl (.inr hk.2)
        · exact .inr ⟨j, hj, hk⟩
    · simp only [h, List.mem_cons]
      constructor
      · rintro (h1 | ⟨j, hj, hk⟩)
        · exact .inl h1
        · exact .inr ⟨j, .inr hj, hk⟩
      · rintro (h1 | ⟨j, rfl | hj, hk⟩)
        · exact .inl h1
        · exact absurd hk.1 h
        · exact .inr ⟨j, hj, hk⟩

/-- The flags of a lane operation are those of its enabled lanes. -/
theorem laneFlags_iff (m : Word) (w : Nat) (f : Nat → FFlags) (b : Nat) :
    (laneFlags m w f).getLsbD b = true ↔ ∃ j, j < 512 / w ∧ enabled m w j = true ∧ (f j).getLsbD b = true := by
  rw [laneFlags, laneFlags_aux]
  simp

/-! Writes of v registers. -/

theorem Proc.pump_updPump (p : Proc) (k j : Nat) (f : Pump → Pump) :
    (p.updPump k f).pump j = if j = k then f (p.pump k) else p.pump j := by
  simp [Proc.updPump, Proc.pump, Sparse.get_upd]

theorem Proc.rv_set (p : Proc) (d r : Reg) (v : Vec) :
    ({ p with v := Sparse.set p.v d.toNat v } : Proc).rv r = if r = d then v else p.rv r := by
  simp [Proc.rv, Sparse.get_set, BitVec.toNat_inj]

theorem not_appends_of_pops {p : Proc} {d : Reg} (h : p.pops d = true) : p.appends d = false := by
  simp only [Proc.pops, Proc.appends, Bool.and_eq_true, Bool.not_eq_true'] at h ⊢
  rw [h.2]
  simp

/-- A v register written, flags ORed, and on to an address. -/
theorem writesV_of {s t : State} {d : Reg} {v : Vec} {pc : Pc} {fl : FFlags} (h : OnlyContext s t)
    (hp : t.proc = { s.proc.wv d v with pc := pc, fst := s.proc.fst ||| fl }) : WritesV s t d v pc fl := by
  by_cases h1 : s.proc.pops d = true
  · have h2 : s.proc.appends d = false := not_appends_of_pops h1
    have hw : t.proc = { s.proc with pc := pc, fst := s.proc.fst ||| fl } := by
      have e : s.proc.wv d v = s.proc := by unfold Proc.wv; rw [if_pos h1]
      rw [hp, e]
    refine ⟨h, ?_, ?_, ?_, ?_, ?_, ?_, ?_, ?_, ?_⟩
    · intro h; rw [h1] at h; exact absurd h (by decide)
    · intro _; rw [hw]
    · intro r _; rw [hw]; rfl
    · intro h; rw [h2] at h; exact absurd h (by decide)
    · intro _; rw [hw]
    · intro k _; rw [hw]; rfl
    · rw [hw]
    · rw [hw]
    · rw [hw]
  · by_cases h2 : s.proc.appends d = true
    · have hw : t.proc = { ({ s.proc.updPump (pumpNum d) (fun u =>
          { u with pend := u.pend ++ [(u.pos.toNat, v)], pos := u.pos + 1 }) with
            v := Sparse.set s.proc.v d.toNat v } : Proc) with pc := pc, fst := s.proc.fst ||| fl } := by
        rw [hp]
        have e : s.proc.wv d v = { s.proc.updPump (pumpNum d) (fun u =>
          { u with pend := u.pend ++ [(u.pos.toNat, v)], pos := u.pos + 1 }) with
            v := Sparse.set s.proc.v d.toNat v } := by unfold Proc.wv; rw [if_neg h1, if_pos h2]
        rw [e]
      refine ⟨h, ?_, ?_, ?_, ?_, ?_, ?_, ?_, ?_, ?_⟩
      · intro _; rw [hw]; simp [Proc.rv]
      · intro h; exact absurd h h1
      · intro r hr; rw [hw]; simp [Proc.rv, Sparse.get_set, BitVec.toNat_inj, hr]
      · intro _; rw [hw]; simp [Proc.pump, Proc.updPump]
      · intro h; rw [h2] at h; exact absurd h (by decide)
      · intro k hk; rw [hw]; simp [Proc.pump, Proc.updPump, Sparse.get_upd, hk]
      · rw [hw]
      · rw [hw]
      · rw [hw]; rfl
    · have hw : t.proc = { ({ s.proc with v := Sparse.set s.proc.v d.toNat v } : Proc) with
          pc := pc, fst := s.proc.fst ||| fl } := by
        rw [hp]
        have e : s.proc.wv d v = { s.proc with v := Sparse.set s.proc.v d.toNat v } := by
          unfold Proc.wv; rw [if_neg h1, if_neg h2]
        rw [e]
      refine ⟨h, ?_, ?_, ?_, ?_, ?_, ?_, ?_, ?_, ?_⟩
      · intro _; rw [hw]; simp [Proc.rv]
      · intro h; exact absurd h h1
      · intro r hr; rw [hw]; simp [Proc.rv, Sparse.get_set, BitVec.toNat_inj, hr]
      · intro h; exact absurd h h2
      · intro _; rw [hw]
      · intro k _; rw [hw]; rfl
      · rw [hw]
      · rw [hw]
      · rw [hw]

theorem onlyContext_wv (s : State) (d : Reg) (v : Vec) : OnlyContext s (s.wv d v) := onlyContext_updProc _ _
theorem onlyContext_orFlags (s : State) (f : FFlags) : OnlyContext s (s.orFlags f) := onlyContext_updProc _ _

@[simp] theorem State.proc_wv (s : State) (d : Reg) (v : Vec) : (s.wv d v).proc = s.proc.wv d v := by simp [State.wv]
@[simp] theorem State.proc_orFlags (s : State) (f : FFlags) :
    (s.orFlags f).proc = { s.proc with fst := s.proc.fst ||| f } := by simp [State.orFlags]

@[simp] theorem Proc.wv_pc (p : Proc) (d : Reg) (v : Vec) : (p.wv d v).pc = p.pc := by
  unfold Proc.wv; split
  · rfl
  · split <;> rfl
@[simp] theorem Proc.wv_fst (p : Proc) (d : Reg) (v : Vec) : (p.wv d v).fst = p.fst := by
  unfold Proc.wv; split
  · rfl
  · split <;> rfl

/-- The end of a lane instruction: the register, the flags, the next instruction. -/
theorem writesV_wv_orFlags_next (s : State) (d : Reg) (v : Vec) (f : FFlags) :
    WritesV s ((s.wv d v).orFlags f).next d v (s.proc.pc + 4) f :=
  writesV_of (((onlyContext_wv s d v).trans (onlyContext_orFlags _ f)).trans (onlyContext_next _)) (by simp)

/-- Asking for walks changes nothing of an image. -/
@[simp] theorem VTile.walkPages_im (t : VTile) (page n : Nat) : (t.walkPages page n).im = t.im := by
  induction n generalizing t page with
  | zero => rfl
  | succ n ih =>
    rw [VTile.walkPages, ih]
    unfold VTile.walk
    split <;> rfl

/-- A change of a tile that leaves its image leaves every context. -/
theorem State.proc_updTile_of_im (s : State) (k : Nat) (f : VTile → VTile) (h : ∀ t, (f t).im = t.im) :
    (s.updTile k f).proc = s.proc := by
  unfold State.proc State.procAt VTile.proc
  rw [State.updTile_cur, State.tile_updTile]
  split
  · rw [h]; simp_all
  · rfl

theorem State.walkPages_proc (s : State) (k page n : Nat) : (s.updTile k (fun t => t.walkPages page n)).proc = s.proc :=
  s.proc_updTile_of_im k _ (fun t => t.walkPages_im page n)

theorem State.proc_ite (s t : State) (c : Bool) (h : t.proc = s.proc) : (if c then s else t).proc = s.proc := by
  cases c <;> simp [h]

/-- Asking for walks changes no context. -/
@[simp] theorem State.walkFor_proc (s : State) (k a n : Nat) : (s.walkFor k a n).proc = s.proc :=
  s.proc_ite _ _ (s.walkPages_proc k (pageOf a) (pageOf (a + n - 1) + 1 - pageOf a))

@[simp] theorem State.popWalk_proc (s : State) (r : Reg) : (s.popWalk r).proc = s.proc := by
  by_cases h : (Sparse.get (s.proc.pump (pumpNum r)).fetched (s.proc.pump (pumpNum r)).pos.toNat).isNone = true
  · rw [State.popWalk, if_pos h, State.walkFor_proc]
  · rw [State.popWalk, if_neg h]

theorem State.pop_pc (s : State) (r : Reg) : (s.pop r).proc.pc = s.proc.pc ∧ (s.pop r).proc.fst = s.proc.fst := by
  unfold State.pop
  split
  · simp [Proc.updPump]
  · exact ⟨rfl, rfl⟩

theorem State.popAll_pc (s : State) (l : List Reg) :
    (s.popAll l).proc.pc = s.proc.pc ∧ (s.popAll l).proc.fst = s.proc.fst := by
  unfold State.popAll
  generalize l.eraseDups = k
  induction k generalizing s with
  | nil => exact ⟨rfl, rfl⟩
  | cons r k ih =>
    rw [List.foldl_cons]
    exact ⟨(ih _).1.trans (s.pop_pc r).1, (ih _).2.trans (s.pop_pc r).2⟩

/-- A vector instruction whose pumps do not fault. -/
theorem State.vector_none (s : State) (rd wr : List Reg) (f : State → State) (h : s.pumpFault rd wr = none) :
    s.vector rd wr f = .next (f (s.popAll rd)).next := by
  unfold State.vector; rw [h]

/-- A vector instruction one of whose pumps faults. -/
theorem State.vector_some (s : State) (rd wr : List Reg) (f : State → State) (e : Flt)
    (h : s.pumpFault rd wr = some e) : s.vector rd wr f = .next (s.raise e) := by
  unfold State.vector; rw [h]

/-- What a lane instruction does when its pumps do not fault. -/
theorem perLane_next (s : State) (d : Reg) (rd : List Reg) (m : MReg) (w : Nat) (f : Nat → FRes)
    (h : s.pumpFault rd [d] = none) :
    ∃ t v fl, s.perLane d rd m w f = .next t ∧ WritesV (s.popAll rd) t d v (s.proc.pc + 4) fl
      ∧ (∀ i, i < 512 / w → lane v w i =
          if enabled (s.m m) w i then (f i).1 % 2 ^ w else lane ((s.popAll rd).proc.rv d) w i)
      ∧ ∀ b, fl.getLsbD b = true ↔ ∃ j, j < 512 / w ∧ enabled (s.m m) w j = true ∧ (f j).2.getLsbD b = true := by
  refine ⟨_, mergeLanes (s.m m) w ((s.popAll rd).proc.rv d) (fun i => (f i).1), laneFlags (s.m m) w (fun i => (f i).2),
    s.vector_none rd [d] _ h, ?_, ?_, ?_⟩
  · rw [← (s.popAll_pc rd).1]
    exact writesV_wv_orFlags_next _ _ _ _
  · intro i hi
    exact lane_mergeLanes _ _ _ _ i hi
  · intro b
    exact laneFlags_iff _ _ _ b

end Sys2Proof.Machine
end

