-- ==== Sys2Proof/Machine/Cistern.lean ====
section
/-! DEFINITION. The cistern of a checkpoint as its 64 MiB stand in the slice of the partner tile (R331, R332). Nothing in
the panel reads it: processes and monitor cannot, and the reliability window through which the driver does has no address in the
manual (log entry 108). -/

namespace Sys2Proof.Machine

/-- A list of bytes filled up with zeros to a multiple of 16. -/
def pad16 (l : List Byte) : List Byte := l ++ List.replicate ((16 - l.length % 16) % 16) 0

/-- An entry of the log: its header of 16 B and its payload, padded. Entries of type 0 stand nowhere. -/
def LogEntry.stored (e : LogEntry) : List Byte :=
  if e.ty = 0 then []
  else toBytes 16 (e.tick.toNat + e.ty.toNat * 2 ^ 64 + e.slot.toNat * 2 ^ 72 + e.bytes.length % 2 ^ 16 * 2 ^ 80)
    ++ pad16 e.bytes

/-- The header: the commit word. -/
def VTile.cisternHeader (t : VTile) : List Byte :=
  let time (c : Option Ckpt) : Nat := (c.map (fun c => c.time.toNat)).getD 0
  toBytes 8 (time t.ck) ++ toBytes 8 (time t.staged) ++ toBytes 8 (t.num + t.part * 2 ^ 16 + t.tenant * 2 ^ 24)

/-- The context image of a checkpoint, with its tile store. -/
def VTile.ckptStore (t : VTile) (c : Ckpt) : List Byte :=
  { t with im := c.im }.imageBytes ++ c.im.tileStore

/-- The image area: context image, tile store and code store of the committed checkpoint. -/
def VTile.cisternImage (t : VTile) : List Byte :=
  match t.ck with
  | some c => t.ckptStore c ++ Memory.read c.im.code 0 (2 ^ 18)
  | none => []

/-- The log area. -/
def VTile.cisternLog (t : VTile) : List Byte := t.log.flatMap LogEntry.stored

/-- The pool: the pages in the order in which they were taken. -/
def VTile.cisternPool (t : VTile) : List Byte :=
  (t.snaps.reverse ++ t.stagedSnaps.reverse).flatMap (fun e => Memory.read e.2 (e.1 * 65536) 65536)

/-- The byte of staging at an offset: context image and pages of the staged checkpoint; a page not yet streamed is not there. -/
def VTile.stagingByte (t : VTile) (off : Nat) : Byte :=
  match t.staged with
  | some c => if 65536 ≤ off && t.marked.contains ((off - 65536) / 4096) then 0 else (t.ckptStore c).getD off 0
  | none => 0

/-- The byte of a vtile's cistern at an offset. -/
def VTile.cisternByte (t : VTile) (off : Nat) : Byte :=
  if off < 0x1000 then t.cisternHeader.getD off 0
  else if off < 0x300000 then t.cisternImage.getD (off - 0x1000) 0
  else if off < 0x600000 then t.stagingByte (off - 0x300000)
  else if off < 0x2000000 then t.cisternLog.getD (off - 0x600000) 0
  else t.cisternPool.getD (off - 0x2000000) 0

end Sys2Proof.Machine
end

