-- ==== Sys2Proof/Tests/Slice0.lean ====
section
/-! SUPPORT. Tests: ill-formed terms, words written out from the manual's encodings, single steps on small states with
results worked out from the manual's tables, and witnesses for the hypotheses of the obligations. -/

namespace Sys2Proof.Tests

set_option Elab.async false

open Sys2Proof Sys2Proof.Machine

/-! Ill-formed terms, one for each check of `Instr.wf`. -/

/-- A lane type above 11 where types 0 to 11 are accepted (R185), e4m3 for vadd. -/
theorem test_wf_lane_type : (Instr.vadd 1 2 3 0 .e4m3).wf = false := by decide
/-- vfma takes float lanes only (R185). -/
theorem test_wf_float_type : (Instr.vfma 1 2 3 0 .s8).wf = false := by decide
/-- vdot takes no 64-bit integers (R186). -/
theorem test_wf_dot_type : (Instr.vdot 1 2 3 0 .s64).wf = false := by decide
/-- Vector shifts take integers (R187). -/
theorem test_wf_shift_type : (Instr.vshl 1 2 3 0 .f32).wf = false := by decide
/-- vexp2, vlog2 and vrsq take f32 only (R185). -/
theorem test_wf_exp_type : (Instr.vexp2 1 2 0 .f64).wf = false := by decide
/-- vrcp and vsqrt take f32 and f64 (R185). -/
theorem test_wf_rcp_type : (Instr.vrcp 1 2 0 .f16).wf = false := by decide
/-- vrng takes unsigned types (R188). -/
theorem test_wf_rng_type : (Instr.vrng 1 0 .s32).wf = false := by decide
/-- fcvt has no pair f32 from f32 (R181). -/
theorem test_wf_fcvt_pair : (Instr.fcvt 1 2 .f32 .f32 false).wf = false := by decide
/-- The .sr form of vcvt has no pair s32 from f32 (R194). -/
theorem test_wf_vcvt_pair : (Instr.vcvt 1 2 0 .s32 .f32 true).wf = false := by decide
/-- vmxq reads an even pair (R195). -/
theorem test_wf_vmxq_pair : (Instr.vmxq 1 3 .e4m3).wf = false := by decide
/-- vmxd writes an even pair, and takes MX types (R195). -/
theorem test_wf_vmxd : (Instr.vmxd 3 2 .e4m3).wf = false ∧ (Instr.vmxd 2 2 .f32).wf = false := by decide
/-- mst: an output type that is none, and a scale register where the column says zero (R213). -/
theorem test_wf_mst : (Instr.mst 1 2 3 0 3).wf = false ∧ (Instr.mst 1 2 3 4 10).wf = false := by decide
/-- mma: a type code above 16 (R145). -/
theorem test_wf_mma : (Instr.mma 1 2 3 4 0x11).wf = false := by decide
/-- cpyr: operation 3 is none. -/
theorem test_wf_cpyr : (Instr.cpyr 1 2 3 4 0 3).wf = false := by decide
/-- rds and wrs: status words 12 to 31 are none (R131). -/
theorem test_wf_status_word : (Instr.rds 1 12).wf = false ∧ (Instr.wrs 1 12).wf = false := by decide
/-- mrds and mwrs: monitor words 9 to 31 are none, and mwrs of fqhd, ptent and hfq are rows of their own (R132). -/
theorem test_wf_monitor_word :
    (Instr.mrds 1 9).wf = false ∧ (Instr.mwrs 1 9).wf = false ∧ (Instr.mwrs 1 1).wf = false := by decide

/-! Words of each family, written out field by field from R134 to R151. -/

/-- R138: sra has fn10 0x00A; R137: csel is major 0x01 with c in fn10 [9:5]. -/
theorem test_decode_integer :
    decode (0x00#7 ++ 8#5 ++ 9#5 ++ 10#5 ++ 0x00A#10) = .ok (.sra 8 9 10)
    ∧ decode (0x00#7 ++ 8#5 ++ 9#5 ++ 0#5 ++ 0x17F#10) = .ok (.zext 8 9 63)
    ∧ decode (0x01#7 ++ 8#5 ++ 9#5 ++ 10#5 ++ 11#5 ++ 0#5) = .ok (.csel 8 9 10 11) := ⟨rfl, rfl, rfl⟩
/-- R137: slti is major 0x09, lui 0x0B, ldk 0x0D with k8 in [14:7]. -/
theorem test_decode_immediate :
    decode (0x09#7 ++ 8#5 ++ 9#5 ++ 10#15) = .ok (.slti 8 9 10)
    ∧ decode (0x0B#7 ++ 8#5 ++ 0x80000#20) = .ok (.lui 8 0x80000)
    ∧ decode (0x0D#7 ++ 8#5 ++ 0#5 ++ 20#8 ++ 0#7) = .ok (.ldk 8 20) := ⟨rfl, rfl, rfl⟩
/-- R163, R164: cbnd is 0x0E with fn10 1, cinci major 0x0F. -/
theorem test_decode_capability :
    decode (0x0E#7 ++ 21#5 ++ 3#5 ++ 9#5 ++ 1#10) = .ok (.cbnd 21 3 9)
    ∧ decode (0x0F#7 ++ 22#5 ++ 21#5 ++ 0x7FC0#15) = .ok (.cinci 22 21 (-64)) := ⟨rfl, rfl⟩
/-- R168: in the B format the a field is [24:20] and the b field [19:15]; R169: jal, jalr. -/
theorem test_decode_control :
    decode (0x12#7 ++ 5#5 ++ 6#5 ++ 0x7FFE#15) = .ok (.blt 5 6 (-2))
    ∧ decode (0x17#7 ++ 10#5 ++ 0#5 ++ 4#15) = .ok (.bnz 10 4)
    ∧ decode (0x18#7 ++ 1#5 ++ 0xFFFFF#20) = .ok (.jal 1 (-1))
    ∧ decode (0x19#7 ++ 0#5 ++ 1#5 ++ 0#15) = .ok (.jalr 0 1 0) := ⟨rfl, rfl, rfl, rfl⟩
/-- R170 to R172, R174: ldh is 0x22, std 0x2B, cas.d is major 0x2D with op 9 and the width bit at [4]. -/
theorem test_decode_memory :
    decode (0x22#7 ++ 8#5 ++ 20#5 ++ 2#15) = .ok (.ldh 8 20 2)
    ∧ decode (0x2B#7 ++ 7#5 ++ 20#5 ++ 8#15) = .ok (.std 7 20 8)
    ∧ decode (0x2D#7 ++ 8#5 ++ 20#5 ++ 9#5 ++ 0#5 ++ 1#1 ++ 9#4) = .ok (.cas 8 20 9 true) := ⟨rfl, rfl, rfl⟩
/-- R178, R180, R181: fma.f64 with c in fn10 [9:5]; fcmp.le.f32; fcvt.f32.f64.sr. -/
theorem test_decode_scalar_float :
    decode (0x30#7 ++ 8#5 ++ 9#5 ++ 10#5 ++ 11#5 ++ 1#1 ++ 5#4) = .ok (.fma 8 9 10 11 true)
    ∧ decode (0x31#7 ++ 8#5 ++ 9#5 ++ 10#5 ++ 0#7 ++ 0#1 ++ 2#2) = .ok (.fcmpLe 8 9 10 false)
    ∧ decode (0x31#7 ++ 8#5 ++ 9#5 ++ 0#1 ++ 11#4 ++ 0#3 ++ 10#4 ++ 1#1 ++ 3#2) = .ok (.fcvt 8 9 .f32 .f64 true) := ⟨rfl, rfl, rfl⟩
/-- R185, R189, R192, R194: vfma.bf16 with mask m1, vcmp.lt.s32, vgat.f32, vcvt.bf16.f32.sr. -/
theorem test_decode_vector :
    decode (0x33#7 ++ 4#5 ++ 8#5 ++ 9#5 ++ 1#3 ++ 9#4 ++ 3#3) = .ok (.vfma 4 8 9 1 .bf16)
    ∧ decode (0x36#7 ++ 2#5 ++ 4#5 ++ 5#5 ++ 0#3 ++ 2#4 ++ 2#3) = .ok (.vcmpLt 2 4 5 0 .s32)
    ∧ decode (0x38#7 ++ 4#5 ++ 20#5 ++ 5#5 ++ 0#3 ++ 10#4 ++ 4#3) = .ok (.vgat 4 20 5 0 .f32)
    ∧ decode (0x39#7 ++ 1#5 ++ 2#5 ++ 1#1 ++ 10#4 ++ 0#3 ++ 9#4 ++ 4#3) = .ok (.vcvt 1 2 0 .bf16 .f32 true) := ⟨rfl, rfl, rfl, rfl⟩
/-- R196, R197, R199: mset, rep, pbind.out of pump 1. -/
theorem test_decode_masks_and_pumps :
    decode (0x3A#7 ++ 3#5 ++ 8#5 ++ 0#5 ++ 6#10) = .ok (.mset 3 8)
    ∧ decode (0x3B#7 ++ 0#5 ++ 6#5 ++ 0#5 ++ 0#7 ++ 5#3) = .ok (.rep 6 5)
    ∧ decode (0x3C#7 ++ 0#5 ++ 21#5 ++ 9#5 ++ 0#4 ++ 0#3 ++ 1#1 ++ 1#2) = .ok (.pbindOut 21 9 1) := ⟨rfl, rfl, rfl⟩
/-- R205, R208, R217: mclaim.f64, mma, cpyr with c in fn10 [9:5]. -/
theorem test_decode_engines :
    decode (0x50#7 ++ 2#3 ++ 0#2 ++ 0#5 ++ 0#5 ++ 0#5 ++ 2#5) = .ok (.mclaim 2 .f64)
    ∧ decode (0x55#7 ++ 3#3 ++ 0#2 ++ 20#5 ++ 21#5 ++ 9#5 ++ 1#5) = .ok (.mma 3 20 21 9 1)
    ∧ decode (0x5C#7 ++ 8#5 ++ 9#5 ++ 0#5 ++ 1#10) = .ok (.cpoll 8 9) := ⟨rfl, rfl, rfl⟩
/-- R147: send is 0x60, recv.t is 0x61 with t = 1, select takes its base in end8 [7:6]; R236: latwait. -/
theorem test_decode_channels :
    decode (0x60#7 ++ 5#5 ++ 0#8 ++ 9#5 ++ 0#5 ++ 0#1 ++ 0#1) = .ok (.send 5 0 9)
    ∧ decode (0x61#7 ++ 8#5 ++ 4#8 ++ 9#5 ++ 0#5 ++ 1#1 ++ 0#1) = .ok (.recvT 8 4 9)
    ∧ decode (0x66#7 ++ 8#5 ++ 2#2 ++ 0#6 ++ 9#5 ++ 10#5 ++ 0#1 ++ 0#1) = .ok (.select 8 2 9 10)
    ∧ decode (0x6C#7 ++ 8#5 ++ 7#8 ++ 0#5 ++ 0#5 ++ 0#1 ++ 0#1) = .ok (.latwait 8 7) := ⟨rfl, rfl, rfl, rfl⟩
/-- R148, R150, R151: spawn, wrs, fence.x, brk, eret, mwrs of fqhd. -/
theorem test_decode_system :
    decode (0x6D#7 ++ 8#5 ++ 10#5 ++ 11#5 ++ 9#5 ++ 0#5) = .ok (.spawn 8 10 11 9)
    ∧ decode (0x70#7 ++ 0#5 ++ 9#5 ++ 1#5 ++ 1#10) = .ok (.wrs 9 1)
    ∧ decode (0x70#7 ++ 0#5 ++ 0#5 ++ 0#5 ++ 0#4 ++ 2#2 ++ 5#4) = .ok (.fence 2)
    ∧ decode (0x71#7 ++ 5#15 ++ 1#10) = .ok (.brk 5)
    ∧ decode (0x78#7 ++ 0#5 ++ 9#5 ++ 0#5 ++ 0#10) = .ok (.eret 9)
    ∧ decode (0x78#7 ++ 0#5 ++ 9#5 ++ 1#5 ++ 7#10) = .ok (.mwrsFqhd 9) := ⟨rfl, rfl, rfl, rfl, rfl, rfl⟩
/-- R152: words that are no instruction, each rejected by name. -/
theorem test_decode_refuses :
    decode 0x00000000 = .error .badFunction ∧ decode 0xFFFFFFFF = .error .badMajor
    ∧ decode (0x00#7 ++ 8#5 ++ 9#5 ++ 1#5 ++ 0x040#10) = .error .badZeroField
    ∧ decode (0x3A#7 ++ 8#5 ++ 0#5 ++ 0#5 ++ 0#10) = .error .badMask
    ∧ decode (0x62#7 ++ 5#5 ++ 0#8 ++ 9#5 ++ 0#5 ++ 1#1 ++ 0#1) = .error .badDeadline
    ∧ decode (0x66#7 ++ 8#5 ++ 1#8 ++ 9#5 ++ 10#5 ++ 0#2) = .error .badBase
    ∧ decode (0x70#7 ++ 8#5 ++ 0#5 ++ 12#5 ++ 0#10) = .error .badWordNumber := ⟨rfl, rfl, rfl, rfl, rfl, rfl, rfl⟩

/-! Small states. -/

/-- A vtile alone on the panel, with key 0; slot 0 of it executes. -/
def alone (v : VTile) : State := { vts := [(0, v)] }
/-- A vtile with a context in slot 0. -/
def vtileOf (p : Proc) : VTile := { im := { procs := [(0, p)] } }
/-- A READY context with g registers. -/
def ready (l : List (Nat × GReg)) : Proc := { st := .ready, g := l }
/-- The state whose slot 0 is READY with g registers. -/
def st (l : List (Nat × GReg)) : State := alone (vtileOf (ready l))
/-- The state in which the monitor executes, with g registers, slot 0 holding a context. -/
def mon (l : List (Nat × GReg)) (p : Proc) : State :=
  { vts := [(0, { im := { procs := [(0, p), (8, ready l)] } })], cur := { vt := 0, who := 8 } }
/-- A data register. -/
def data (n : Nat) : GReg := dataReg (BitVec.ofNat 64 n)
/-- A capability over the user tile store, with every perm, at an address. -/
def storeCap (a : Nat) : GReg := mkCap (BitVec.ofNat 32 a) 0x800 0x1E0000 31
/-- The state after an instruction or an event. -/
def after (i : Instr) (s : State) : State :=
  match exec i s with
  | .next t => t
  | _ => s
/-- The state after a step. -/
def stepped (s : State) : State :=
  match step s with
  | .next t => t
  | _ => s

/-! Single steps; the results are worked out by hand from the manual's tables. -/

/-- R155: x + y mod 2^64. -/
theorem test_add_wraps : (after (.add 5 6 7) (st [(6, data (2 ^ 64 - 1)), (7, data 2)])).x 5 = 1 := by decide +kernel
/-- R155: mulhn of 2^63 and 6 is 3. -/
theorem test_mulhn : (after (.mulhn 5 6 7) (st [(6, data (2 ^ 63)), (7, data 6)])).x 5 = 3 := by decide +kernel
/-- R108: division by zero gives all ones, and the remainder the dividend. -/
theorem test_div_zero :
    (after (.div 5 6 7) (st [(6, data 9)])).x 5 = BitVec.allOnes 64
    ∧ (after (.rem 5 6 7) (st [(6, data 9)])).x 5 = 9 := by decide +kernel
/-- R156: a word result is sign-extended. -/
theorem test_addw_sign : (after (.addw 5 6 7) (st [(6, data 0x7FFFFFFF), (7, data 1)])).x 5 = 0xFFFFFFFF80000000 := by
  decide +kernel
/-- R160: lui of 0x80000 is negative. -/
theorem test_lui_sign : (after (.lui 5 0x80000) (st [])).x 5 = 0xFFFFFFFF80000000 := by decide +kernel
/-- R130: a write to g0 is discarded. -/
theorem test_g0 : (after (.addi 0 6 1) (st [(6, data 5)])).x 0 = 0 := by decide +kernel
/-- R164: cinci keeps the tag; R162: of an untagged source it raises CAP_TAG and the process is PARKED (R22). -/
theorem test_cinci :
    ((after (.cinci 5 6 (-64)) (st [(6, storeCap 0x1000)])).g 5) = storeCap 0xFC0
    ∧ (after (.cinci 5 6 1) (st [(6, data 0x1000)])).proc.st = .parked := by decide +kernel
/-- R168: a branch not taken goes to pc + 4, one taken backwards wraps at 2^18. -/
theorem test_branch_wraps :
    (after (.beq 0 0 (-1)) (st [])).proc.pc = 0x3FFFC ∧ (after (.bne 0 0 (-1)) (st [])).proc.pc = 4 := by decide +kernel
/-- R169: ga is read before gd is written. -/
theorem test_jalr_same : (after (.jalr 1 1 1) (st [(1, data 0x103)])).proc.pc = 0x104
    ∧ (after (.jalr 1 1 1) (st [(1, data 0x103)])).x 1 = 4 := by decide +kernel
/-- R170, R171: a halfword stored little-endian is read back with its sign. -/
theorem test_store_load :
    (after (.ldh 7 6 0) (after (.sth 5 6 0) (st [(5, data 0x12FF80), (6, storeCap 0x1002)]))).x 7 = 0xFFFFFFFFFFFFFF80 := by
  decide +kernel
/-- R66, R67: stc of a capability sets the tag of its unit, ldc reads it, and a byte store clears it. -/
theorem test_stc_tag :
    ((after (.ldc 7 6 0) (after (.stc 5 6 0) (st [(5, storeCap 0x900), (6, storeCap 0x1000)]))).g 7).tag = true
    ∧ ((after (.ldc 7 6 0) (after (.stb 0 6 3) (after (.stc 5 6 0)
        (st [(5, storeCap 0x900), (6, storeCap 0x1000)])))).g 7).tag = false := by decide +kernel
/-- R174: amoadd.w wraps at 32 bits and returns the old value, sign-extended. -/
theorem test_amoadd :
    (after (.ldwn 8 6 0) (after (.amoadd 7 6 5 false) (after (.stw 5 6 0)
      (st [(5, data 0xFFFFFFFF), (6, storeCap 0x1000)])))).x 8 = 0xFFFFFFFE
    ∧ (after (.amoadd 7 6 5 false) (after (.stw 5 6 0)
      (st [(5, data 0xFFFFFFFF), (6, storeCap 0x1000)]))).x 7 = 0xFFFFFFFFFFFFFFFF := by decide +kernel
/-- R178: 1 + 2^-24 in FP32 is a tie and rounds to even, setting NX (R109). -/
theorem test_fadd_tie :
    (after (.fadd 5 6 7 false) (st [(6, data 0x3F800000), (7, data 0x33800000)])).x 5 = 0x3F800000
    ∧ (after (.fadd 5 6 7 false) (st [(6, data 0x3F800000), (7, data 0x33800000)])).proc.fst = 16 := by decide +kernel
/-- R180: −0 and +0 compare equal. -/
theorem test_fcmp_zeros : (after (.fcmpEq 5 6 7 false) (st [(6, data 0x80000000)])).x 5 = 1 := by decide +kernel
/-- R196: mfst of an empty mask is 64; a read of m0 is all ones. -/
theorem test_mfst : (after (.mfst 5 1) (st [])).x 5 = 64 ∧ (after (.mpop 5 0) (st [])).x 5 = 64 := by decide +kernel
/-- R131: wrs of a read-only word is ignored, and rds of prio reads two bits. -/
theorem test_wrs : (after (.wrs 6 8) (st [(6, data 7)])).proc.prio = 3 ∧ (after (.wrs 6 5) (st [(6, data 7)])).proc.pnum = 0 := by
  decide +kernel
/-- R244, R83: trap parks the process at the instruction and counts. -/
theorem test_trap : (after (.trap 5) (st [])).proc.st = .parked ∧ (after (.trap 5) (st [])).proc.fltc = 1
    ∧ (after (.trap 5) (st [])).proc.pc = 0 := by decide +kernel
/-- R85, R86: the record of a trap stands at index 0 with its code, its aux, and the tail moves on. -/
theorem test_trap_record : (after (.trap 5) (st [])).here.fqtl = 1
    ∧ Memory.read (after (.trap 5) (st [])).here.im.store 0x1E0000 1 = [4]
    ∧ Memory.read (after (.trap 5) (st [])).here.im.store 0x1E0018 1 = [5] := by decide +kernel
/-- R246: eret of a PARKED slot makes it READY at its pc. -/
theorem test_eret : ((after (.eret 0) (mon [] { st := .parked, pc := 8 })).procAt 0 0).st = .ready
    ∧ ((after (.eret 0) (mon [] { st := .parked, pc := 8 })).procAt 0 0).pc = 8 := by decide +kernel
/-- R245: a monitor word issued by a process raises PRIV. -/
theorem test_priv : Memory.read (after (.eret 0) (st [])).here.im.store 0x1E0000 1 = [2] := by decide +kernel
/-- R53: a process that is no member of a latch is PARKED. -/
theorem test_latch_member : (after (.latarr 5 3) (st [])).proc.st = .parked := by decide +kernel
/-- R24, R237: spawn takes the lowest EMPTY slot, and the child has its argument in g5. -/
theorem test_spawn : ((after (.spawn 8 10 11 9) (st [(10, data 0x43), (11, data 77)])).procAt 0 1).pc = 0x40
    ∧ (((after (.spawn 8 10 11 9) (st [(10, data 0x43), (11, data 77)])).procAt 0 1).rg 5).x = 77 := by decide +kernel
/-- R305: a TSET in phase 4 sets package time once. -/
theorem test_tset :
    (after .tsetWrite { ({} : State) with up := { phase := 4, reset := false, hostLink := true }, arg := { v := 1000 } }).time = 1000 := by
  decide +kernel
/-- The next step from withFetchWord fetches and runs the word, on either pipe. -/
theorem test_fetch_word :
    ((stepped (State.reset.withFetchWord 32 (0x02 * 2 ^ 25 + 5 * 2 ^ 20 + 7))).procAt 0 0).rg 5 = data 7
    ∧ ((stepped (State.reset.withFetchWord 32 (0x3A * 2 ^ 25 + 5 * 2 ^ 20 + 4))).procAt 0 0).rg 5 = data 64
    ∧ decodeTableWord 32 (0x02 * 2 ^ 25 + 5 * 2 ^ 20 + 7) = some (.addi 5 0 7) := by decide +kernel
/-- R17: from power-on nothing issues. -/
theorem test_reset_task : State.reset.task = .fabric := by decide

/-! Witnesses: for every obligation with hypotheses, states and operands that meet them, clause by clause. -/

/-- A slot's register file for addresses: g6 and g7 hold capabilities of the tile store, g8 data. -/
def addr : State := st [(6, storeCap 0x1000), (7, storeCap 0x2000), (8, data 64), (9, storeCap 0x1001)]

theorem witness_IntegerResults :
    Rules.intRegister addr (.sub 5 8 8) = some (5, 0) ∧ Rules.intImmediate addr (.addi 5 8 (-1)) = some (5, 63)
    ∧ Rules.intCode (.sub 5 8 8) = some (0, 10, 2) ∧ (encode (.sub 5 8 8)).isSome = true := by decide +kernel

theorem witness_CapabilityInstructions :
    (∃ d a v, Rules.derived addr (.cinci 5 6 4) = some (d, a, v) ∧ (addr.g a).tag = true)
    ∧ (∃ d a v, Rules.derived addr (.cinci 5 8 4) = some (d, a, v) ∧ (addr.g a).tag = false)
    ∧ ((addr.g 6).tag = true ∧ (addr.g 6).base.toNat ≤ (addr.g 6).cursor.toNat
      ∧ (addr.g 6).cursor.toNat + (addr.x 8).toNat ≤ (addr.g 6).limit.toNat)
    ∧ ((addr.g 6).tag = true ∧ (addr.g 6).limit.toNat < (addr.g 6).cursor.toNat + (addr.x 6).toNat)
    ∧ (addr.g 8).tag = false
    ∧ (∃ d v, Rules.queried addr (.cgetp 5 6) = some (d, v)) :=
  ⟨⟨_, _, _, rfl, by decide +kernel⟩, ⟨_, _, _, rfl, by decide +kernel⟩, by decide +kernel, by decide +kernel,
    by decide +kernel, ⟨_, _, rfl⟩⟩

theorem witness_ControlTransfers :
    Rules.branch addr (.beq 5 6 3) = some (false, 3) ∧ Rules.branch addr (.beq 5 5 3) = some (true, 3)
    ∧ Rules.controlMajor (.bz 5 3) = some 0x16 ∧ (encode (.bz 5 3)).isSome = true := by decide +kernel

/-- A page of the well mapped for reading, and the next one not; g registers with capabilities for the check. -/
def welled : State := alone { vtileOf (ready [(6, mkCap 0x40000000 0x40000000 0x7C000000 31)]) with pt := [(0, 3)] }
/-- A read of n bytes through a capability, at its cursor. -/
def reads (g : GReg) (n : Nat) : Access := { g := g, reg := 6, size := n, align := 8, perms := permL, rd := true }

theorem witness_LoadsAndStores_check :
    ((reads (data 0) 8).g.tag = false)
    ∧ ((reads (mkCap 0x1000 0 0x2000 2) 8).g.perms &&& permL ≠ permL)
    ∧ (let a := reads (storeCap 0x7F8) 8; a.g.perms &&& a.perms = a.perms ∧ 0x7F8 < a.g.base.toNat)
    ∧ (let a := reads (storeCap 0x1DFFF8) 16; a.g.base.toNat ≤ 0x1DFFF8 ∧ a.g.limit.toNat < 0x1DFFF8 + a.size)
    ∧ (let a := reads (storeCap 0x1DFFF8) 8; 0x1DFFF8 + a.size ≤ a.g.limit.toNat ∧ 0x1DFFF8 % a.align = 0)
    ∧ (let a := reads (storeCap 0x1004) 8; 0x1004 + a.size ≤ a.g.limit.toNat ∧ 0x1004 % a.align ≠ 0)
    ∧ (∀ r, r ∈ Rules.rows addr false → ¬(r.1 ≤ 0x1DFFF8 ∧ 0x1DFFF8 + 16 ≤ r.2))
    ∧ (∃ r, r ∈ Rules.rows addr false ∧ r.1 ≤ 0x1DFFF8 ∧ 0x1DFFF8 < r.2)
    ∧ (∀ r, r ∈ Rules.rows addr false → ¬(r.1 ≤ 0x1E0000 ∧ 0x1E0000 < r.2))
    ∧ (∃ r, r ∈ Rules.rows welled false ∧ r.1 ≤ 0x4000FFF8 ∧ 0x4000FFF8 + 16 ≤ r.2) := by
  refine ⟨by decide, by decide, by decide, by decide, by decide, by decide, by decide, ⟨(0x800, 0x1E0000), by decide⟩,
    by decide, ⟨(0x40000000, 0x7C000000), by decide⟩⟩

theorem witness_LoadsAndStores_page :
    (let a := reads (welled.g 6) 16
     (a.pages = true ∧ wellLo ≤ 0x4000FFF8 ∧ pageOf 0x4000FFF8 ≤ 1 ∧ 1 ≤ pageOf (0x4000FFF8 + a.size - 1))
      ∧ ¬Rules.pageOpen welled a 1 ∧ Rules.pageOpen welled a 0) := by
  refine ⟨by decide, fun h => ?_, ⟨fun r h => absurd h List.not_mem_nil, by decide, by decide, by decide⟩⟩
  exact absurd h.2.1 (by decide)

theorem witness_LoadsAndStores_misaligned :
    addr.check (loadAccess (addr.g 9) 9 0 8) = .ok 0x1001 ∧ addr.check (storeAccess (addr.g 9) 9 0 8) = .ok 0x1001
    ∧ 0x1001 % 8 ≠ 0 ∧ 0x1008 % 8 = 0 := ⟨rfl, rfl, by decide, by decide⟩

theorem witness_LoadsAndStores :
    (∃ d a o n f, Rules.load (.ldd 5 6 8) = some (d, a, o, n, f) ∧ addr.check (loadAccess (addr.g a) a o n) = .ok 0x1008)
    ∧ (∃ d a o n f e, Rules.load (.ldd 5 8 8) = some (d, a, o, n, f)
      ∧ addr.check (loadAccess (addr.g a) a o n) = .error e)
    ∧ (∃ d a o n, Rules.store (.std 5 6 8) = some (d, a, o, n)
      ∧ addr.check (storeAccess (addr.g a) a o n) = .ok 0x1008 ∧ 0x1008 < wellLo)
    ∧ (∃ d a o n e, Rules.store (.std 5 8 8) = some (d, a, o, n)
      ∧ addr.check (storeAccess (addr.g a) a o n) = .error e)
    ∧ Rules.accessMajor (.std 5 6 8) = some 0x2B :=
  ⟨⟨_, _, _, _, _, rfl, rfl⟩, ⟨_, _, _, _, _, _, rfl, rfl⟩, ⟨_, _, _, _, rfl, rfl, by decide⟩,
    ⟨_, _, _, _, _, rfl, rfl⟩, rfl⟩

theorem witness_StoredBytes :
    ([1, 2] : List Byte) ≠ [] ∧ 0x1000 + [1, 2].length ≤ 2 ^ 32 ∧ 0x1000 + [1, 2].length ≤ wellLo
    ∧ (0x1002 < 2 ^ 32 ∧ ∀ j, j < [1, 2].length → Rules.place addr 0 0x1002 ≠ Rules.place addr 0 (0x1000 + j)) := by
  decide +kernel

theorem witness_CapabilityLoadStore :
    addr.check (ldcAccess (addr.g 6) 6 16) = .ok 0x1010
    ∧ addr.check (stcAccess (addr.g 6) 6 16 (addr.g 7).tag) = .ok 0x1010 ∧ 0x1010 < wellLo := ⟨rfl, rfl, by decide⟩

theorem witness_Atomics :
    (∃ d a z, Rules.atomicForm (.cas 5 6 8 true) = some (d, a, z)
      ∧ addr.check (atomicAccess (addr.g a) a 8) = .ok 0x1000
      ∧ Rules.atomicNew addr 8 (ofBytes (addr.readBytes 0 0x1000 8)) (.cas 5 6 8 true) = some (some 64))
    ∧ (∃ d a z e, Rules.atomicForm (.cas 5 9 8 true) = some (d, a, z)
      ∧ addr.check (atomicAccess (addr.g a) a 8) = .error e) :=
  ⟨⟨_, _, _, rfl, rfl, by decide +kernel⟩, ⟨_, _, _, _, rfl, rfl⟩⟩

theorem witness_ScalarFloat : ∃ d v fl, Rules.floatResult addr (.fadd 5 8 8 true) = some (d, v, fl) := ⟨_, _, _, rfl⟩

/-- A context with a bound input pump 0 at its count, and a bound output pump 1 with room. -/
def pumped : State := alone (vtileOf { ready [(6, storeCap 0x1000)] with
  pumps := [(0, { bound := true }), (1, { bound := true, out := true, desc := 0x300000040, cap := storeCap 0x1000 })] })

theorem witness_VectorLanes :
    (∃ r, Rules.lanes addr (.vadd 1 2 3 0 .f32) = some r) ∧ addr.pumpFault [2, 3] [1] = none
    ∧ (∃ rd wr f, Rules.pumpUse (.vadd 1 28 3 0 .f32) = some (rd, wr) ∧ pumped.pumpFault rd wr = some f) :=
  ⟨⟨_, rfl⟩, by decide +kernel, ⟨_, _, _, rfl, rfl⟩⟩

theorem witness_VectorSelectConvert :
    addr.pumpFault [2, 3] [1] = none ∧ addr.pumpFault [] [1] = none ∧ addr.pumpFault [2] [1] = none
    ∧ pumped.pumpFault [2, 3] [29] = none := by decide +kernel

theorem witness_VectorReductions :
    (∃ d rd v fl, Rules.folded addr (.vredSum 5 2 0 .s8) = some (d, rd, v, fl) ∧ addr.pumpFault rd [] = none) :=
  ⟨_, _, _, _, rfl, by decide +kernel⟩

theorem witness_VectorMicroscaling : addr.pumpFault [2, 3] [1] = none ∧ addr.pumpFault [2] [4, 5] = none := by
  decide +kernel

theorem witness_VectorLoadStore :
    (addr.check (vldAccess (addr.g 6) 6 1 false) = .ok 0x1040 ∧ addr.pumpFault [] [1] = none)
    ∧ (addr.check (vldAccess (addr.g 6) 6 1 true) = .ok 0x1040 ∧ addr.pumpFault [1] [] = none)
    ∧ (∃ f, addr.check (vldAccess (addr.g 9) 9 0 false) = .error f)
    ∧ (∃ f, addr.check (vldAccess (addr.g 9) 9 0 true) = .error f) :=
  ⟨⟨rfl, by decide +kernel⟩, ⟨rfl, by decide +kernel⟩, ⟨_, rfl⟩, ⟨_, rfl⟩⟩

theorem witness_VectorElementAccesses :
    (∃ st d a m t pre off, Rules.elements addr (.vlds 1 6 8 0 .s64) = some (st, d, a, m, t, pre, off, none)
      ∧ (∃ l, addr.elemPlaces (fun j => elemAccess (addr.g a) a (laneBits t) (off j) st)
        (enabledLanes (addr.m m) (laneBits t)) = .ok l) ∧ st = false ∧ addr.pumpFault pre [d] = none)
    ∧ (∃ st d a m t pre off, Rules.elements addr (.vsts 1 6 8 0 .s64) = some (st, d, a, m, t, pre, off, none)
      ∧ (∃ l, addr.elemPlaces (fun j => elemAccess (addr.g a) a (laneBits t) (off j) st)
        (enabledLanes (addr.m m) (laneBits t)) = .ok l) ∧ st = true ∧ addr.pumpFault (pre ++ [d]) [] = none)
    ∧ (let s := alone { vtileOf (ready [(6, storeCap 0x1000), (8, data 64)]) with ahead := some { bytes := [[1, 2]] } }
       (addr.here.ahead = none ∧ ∃ h, s.here.ahead = some h ∧ h.who = s.cur.who
        ∧ ∃ z bs, s.readParts h.bytes.length h.reads = (z, bs)))
    ∧ (∃ st d a m t pre off f, Rules.elements addr (.vlds 1 9 8 0 .s64) = some (st, d, a, m, t, pre, off, none)
      ∧ addr.elemPlaces (fun j => elemAccess (addr.g a) a (laneBits t) (off j) st)
        (enabledLanes (addr.m m) (laneBits t)) = .error f) :=
  ⟨⟨_, _, _, _, _, _, _, rfl, ⟨_, rfl⟩, rfl, by decide +kernel⟩,
    ⟨_, _, _, _, _, _, _, rfl, ⟨_, rfl⟩, rfl, by decide +kernel⟩, ⟨rfl, _, rfl, rfl, _, _, rfl⟩,
    ⟨_, _, _, _, _, _, _, _, rfl, rfl⟩⟩

/-- Offsets from an empty pump, with and without a lane enabled, from one whose page may not be read, and from no pump. -/
theorem witness_VectorElementAccesses_offsets :
    (∃ f, pumped.popPage 28 = none ∧ pumped.popEmpty 28 = some f
      ∧ (∃ j, j < 512 / laneBits .s32 ∧ enabled (pumped.m 0) (laneBits .s32) j = true)
      ∧ pumped.offsetFault 6 28 0 .s32 false = some f)
    ∧ (∃ f, pumped.popEmpty 28 = some f ∧ ∀ j, j < 512 / laneBits .s32 → enabled (pumped.m 1) (laneBits .s32) j = false)
    ∧ (addr.popPage 3 = none ∧ addr.popEmpty 3 = none)
    ∧ (let s := alone { vtileOf { ready [(6, storeCap 0x1000)] with
         pumps := [(0, { bound := true, desc := 0x300000040, cap := mkCap 0x40000000 0x40000000 0x7C000000 31 })] } with
           pt := [] }
       ∃ f, s.popPage 28 = some f) := by
  refine ⟨⟨_, by decide +kernel, rfl, ⟨0, by decide, by decide +kernel⟩, by decide +kernel⟩, ⟨_, rfl, ?_⟩, by decide +kernel,
    ⟨_, rfl⟩⟩
  decide +kernel

theorem witness_ComparesAndMasks :
    (∃ c d a b m t, Rules.vcmp (.vcmpLt 1 2 3 0 .f32) = some (c, d, a, b, m, t) ∧ t ≠ .e2m1
      ∧ addr.pumpFault [a, b] [] = none)
    ∧ (∃ d v, Rules.maskResult addr (.mnot 1 0) = some (d, v))
    ∧ (∃ w i, decode w = .ok i ∧ fMajor w = 0x3A ∧ fFn10 w ≤ 2)
    ∧ (∃ w i, decode w = .ok i ∧ fMajor w = 0x3A ∧ fFn10 w = 6) :=
  ⟨⟨_, _, _, _, _, _, rfl, by decide, by decide +kernel⟩, ⟨_, _, rfl⟩,
    ⟨0x3A#7 ++ 1#5 ++ 2#5 ++ 3#5 ++ 0#10, _, rfl, rfl, by decide⟩,
    ⟨0x3A#7 ++ 1#5 ++ 31#5 ++ 0#5 ++ 6#10, _, rfl, rfl, by decide⟩⟩

/-- Slot 0 stands at a rep, with the word after it and the value of gc, g5. -/
def repAt (w : BitVec 32) (gc : Nat) : State := alone { im := {
  procs := [(0, ready [(5, data gc)])], code := Memory.write [] 4 (toBytes 4 w.toNat) } }
/-- The word of vadd.f32 v30, v2, v3. -/
def vaddWord : BitVec 32 := 0x33#7 ++ 30#5 ++ 2#5 ++ 3#5 ++ 0#3 ++ 10#4 ++ 0#3

theorem witness_RepIterations :
    repeatable ((repAt 0 0).here.fetchNext 0) = false
    ∧ (repeatable ((repAt vaddWord 0).here.fetchNext 0) = true ∧ ((repAt vaddWord 0).x 5).toNat % 2 ^ 32 = 0)
    ∧ (((repAt vaddWord (2 * 2 ^ 32 + 1)).x 5).toNat % 2 ^ 32 ≠ 0
      ∧ repOver ((repAt vaddWord (2 * 2 ^ 32 + 1)).here.fetchNext 0) 7
        (((repAt vaddWord (2 * 2 ^ 32 + 1)).x 5).toNat / 2 ^ 32) = true) := by decide +kernel

theorem witness_RepIterations_one :
    repOver ((repAt vaddWord (2 ^ 32 + 1)).here.fetchNext 0) 7 1 = false
    ∧ ∃ i u, decode (repWord ((repAt vaddWord (2 ^ 32 + 1)).here.fetchNext 0) 7 1) = .ok i
      ∧ bExec i (repAt vaddWord (2 ^ 32 + 1)) = .next u ∧ u.proc.pc = (repAt vaddWord (2 ^ 32 + 1)).proc.pc + 4 :=
  ⟨by decide +kernel, _, _, rfl, rfl, by decide +kernel⟩

/-- mand m7, m1, m1 under rep: the next iteration names a mask register 8, and is no instruction. -/
theorem witness_RepIterations_illegal :
    (let s := repAt (0x3A#7 ++ 7#5 ++ 1#5 ++ 1#5 ++ 0#10) (2 ^ 32 + 1)
     repeatable (s.here.fetchNext 0) = true ∧ repOver (s.here.fetchNext 0) 4 1 = false
      ∧ ∃ e, decode (repWord (s.here.fetchNext 0) 4 1) = .error e) :=
  ⟨by decide +kernel, by decide +kernel, _, rfl⟩

/-- Registers for a pump: g6 the capability, g8 the descriptor of two elements 64 bytes apart, g9 of none, g10 of a bad
stride. -/
def toBind : State := st [(6, storeCap 0x1000), (8, data 0x200000040), (9, data 0x40), (10, data 0x200000041)]

theorem witness_InputAndOutputPumps :
    (((toBind.x 8).setWidth 32 : BitVec 32).toInt % 64 = 0 ∧ (toBind.proc.pump 1).bound = false
      ∧ ∀ j, j < (toBind.x 8).toNat / 2 ^ 32 → ∃ addr, toBind.check (bindAccess (toBind.g 6) 6
        (((toBind.x 8).setWidth 32 : BitVec 32).toInt * j) true) = .ok addr)
    ∧ ((toBind.x 9).toNat / 2 ^ 32 = 0 ∧ bindPerms (toBind.g 6) 6 false = none)
    ∧ (((toBind.x 10).setWidth 32 : BitVec 32).toInt % 64 ≠ 0)
    ∧ (pumped.proc.pump 0).bound = true
    ∧ ((pumped.proc.pump 1).pend = [] ∧ (pumped.proc.pump 1).bound = true ∧ (pumped.proc.pump 2).bound = false)
    ∧ (let s := alone (vtileOf { ready [] with pumps := [(0, { bound := true, out := true, pend := [(0, 0)] })] })
       (s.proc.pump 0).bound = true ∧ (s.proc.pump 0).out = true ∧ (s.proc.pump 0).pend ≠ [] ∧ s.inMonitor = false) := by
  refine ⟨⟨by decide +kernel, by decide +kernel, ?_⟩, by decide +kernel, by decide +kernel, by decide +kernel,
    by decide +kernel, by decide +kernel⟩
  intro j hj
  have h : j = 0 ∨ j = 1 := by
    have : (toBind.x 8).toNat / 2 ^ 32 = 2 := by decide +kernel
    omega
  rcases h with rfl | rfl
  · exact ⟨_, rfl⟩
  · exact ⟨_, rfl⟩

/-- Slot 0 owns accumulator 1 with the shape f32. -/
def owner : State := alone { im := { procs := [(0, ready [(6, storeCap 0x1000), (7, storeCap 0x2000), (8, data 128), (9, data 3),
  (10, data (128 * 65536 + 128))])], accs := [(1, { valid := true })] } }

theorem witness_Accumulators :
    owner.inMonitor = false ∧ (owner.here.acc 0).valid = false
    ∧ (owner.here.owns owner.cur.who 1 = true ∧ (owner.here.acc 1).shape = .f32 ∧ (owner.here.acc 1).shape ≠ .f64
      ∧ owner.here.inFlight 1 = false)
    ∧ owner.here.owns owner.cur.who 0 = false
    ∧ (let s := alone { owner.here with im := { owner.here.im with accs := [(1, { valid := true, owner := 3 })] } }
       (s.here.acc 1).valid = true ∧ s.here.owns s.cur.who 1 = false)
    ∧ (let s := alone { owner.here with im := { owner.here.im with mats := [{ acc := 1 }] } }
       s.here.owns s.cur.who 1 = true ∧ s.here.inFlight 1 = true) := by decide +kernel

theorem witness_MatrixCommands :
    owner.inMonitor = false ∧ owner.here.owns owner.cur.who 1 = true
    ∧ ((owner.x 8).toNat < 65536 ∧ (owner.x 8).toNat % 64 = 0 ∧ 128 ≤ (owner.x 8).toNat)
    ∧ ((owner.x 9).toNat % 64 ≠ 0)
    ∧ (mstAccepts (owner.here.acc 1).shape 10 = true ∧ mstScaled 10 = false ∧ mstRow (owner.here.acc 1).shape 10 ≤ 128)
    ∧ ((owner.x 10).toNat < 2 ^ 42 ∧ (mmaType 1).shape = (owner.here.acc 1).shape
      ∧ (operandA (mmaType 1) 0 (owner.x 10)).pitchOk = true ∧ (operandB (mmaType 1) 0 (owner.x 10)).pitchOk = true) := by
  decide +kernel

theorem witness_MatrixCommands_checks :
    (∃ a, owner.check (matAccess (owner.g 6) 6 0 ((shapeRows (owner.here.acc 1).shape - 1) * 128 + 128) false) = .ok a)
    ∧ (∃ a, owner.check (matAccess (owner.g 6) 6 0 (mstSpan (owner.here.acc 1).shape 10 128) true) = .ok a)
    ∧ (∃ a, owner.check (matAccess (owner.g 6) 6 0 (operandA (mmaType 1) 0 (owner.x 10)).span false) = .ok a)
    ∧ (∃ a, owner.check (matAccess (owner.g 7) 7 1 (operandB (mmaType 1) 0 (owner.x 10)).span false) = .ok a) :=
  ⟨⟨_, rfl⟩, ⟨_, rfl⟩, ⟨_, rfl⟩, ⟨_, rfl⟩⟩

/-- A descriptor in the tile store at 0x3000: one dimension of one element of 8 bytes, and its capability in g10; one at
0x3100 is all zeros, and its capability is in g14. -/
def described : State := alone { im := {
  procs := [(0, ready [(6, storeCap 0x1000), (7, storeCap 0x2000), (10, storeCap 0x3000), (11, data 64), (12, data 7),
    (13, data 0), (14, storeCap 0x3100)])]
  store := Memory.write [] 0x3000 ([11] ++ List.replicate 15 0 ++ [1]) } }

theorem witness_LocalCopies_cpy :
    described.inMonitor = false
    ∧ ((described.x 11).toNat ≤ 0x40000000 ∧ (described.x 11).toNat % 8 = 0 ∧ (described.x 11).toNat ≠ 0)
    ∧ (described.x 13).toNat = 0 ∧ (described.x 12).toNat % 8 ≠ 0
    ∧ described.check (copyAccess (described.g 6) 6 0 0 64 8 permS) = .ok 0x1000
    ∧ described.check (copyAccess (described.g 7) 7 1 0 64 8 permL) = .ok 0x2000
    ∧ described.check (copyAccess (described.g 6) 6 0 0 0 8 permS) = .ok 0x1000
    ∧ described.check (copyAccess (described.g 7) 7 1 0 0 8 permL) = .ok 0x2000 :=
  ⟨by decide +kernel, by decide +kernel, by decide +kernel, by decide +kernel, rfl, rfl, rfl, rfl⟩


theorem witness_LocalCopies_tensor :
    described.check (descAccess (described.g 10) 10) = .ok 0x3000
    ∧ descBad (described.readBytes 0 0x3000 128) 1 = none ∧ descBad (described.readBytes 0 0x3000 128) (cpyrSize 0) = none
    ∧ (∃ dst src, described.check (rangeAccess (described.g 6) 6 0
        ((descDims (described.readBytes 0 0x3000 128)).map (fun e => (e.count, e.dstr)))
        (descEsz (described.readBytes 0 0x3000 128)) (permL ||| permS)) = .ok dst
      ∧ described.check (rangeAccess (described.g 7) 7 1
        ((descDims (described.readBytes 0 0x3000 128)).map (fun e => (e.count, e.sstr)))
        (descEsz (described.readBytes 0 0x3000 128)) permL) = .ok src)
    ∧ described.check (descAccess (described.g 14) 14) = .ok 0x3100
    ∧ descBad (described.readBytes 0 0x3100 128) 1 = some 0 :=
  ⟨rfl, by decide +kernel, by decide +kernel, ⟨_, _, rfl, rfl⟩, rfl, by decide +kernel⟩

/-- A network with aperture 0 on the host, of 64 KiB, readable and writable, and its host link live. -/
def bound : State := { described with
  nets := [(0, { apertures := [(0, { size := 65536, rd := true, wr := true })] })]
  vts := [(0, { im := { procs := [(0, ready [(6, storeCap 0x1000), (7, data (63 * 256)), (11, data 64), (12, data 7)])] } })] }

theorem witness_ExternalCopyIssue :
    bound.inMonitor = false ∧ bound.badExternal (bound.x 7).toNat (bound.x 12).toNat true = true
    ∧ bound.badExternal (bound.x 7).toNat (bound.x 11).toNat true = false
    ∧ bound.badExternal (bound.x 7).toNat (bound.x 11).toNat false = false
    ∧ bound.check (copyAccess (bound.g 6) 6 0 0 64 64 permS) = .ok 0x1000
    ∧ bound.check (copyAccess (bound.g 6) 6 0 0 64 64 permL) = .ok 0x1000 :=
  ⟨by decide +kernel, by decide +kernel, by decide +kernel, by decide +kernel, rfl, rfl⟩

/-- A copy with id 5 of slot 0 outstanding. -/
def copying : State := alone { im := {
  procs := [(0, ready [(6, data 5), (7, data 9)])], copies := [(0, { kind := .cpy, id := 5, total := 4 })] } }

theorem witness_CopyWaitsAndFences :
    copying.inMonitor = false ∧ copying.here.copyOut 0 ((copying.x 7).setWidth 16) = false
    ∧ copying.here.copyOut 0 ((copying.x 6).setWidth 16) = true
    ∧ (copying.proc.st = .ready ∧ copying.here.entryOf 0 ((copying.x 6).setWidth 16) = some 0
      ∧ (Sparse.get copying.here.im.copies 0).isLocal = true)
    ∧ (let s := alone { im := { procs := [(0, ready [(6, data 5)])], copies := [(0, { kind := .cpyt, id := 5, total := 4, lend := 0x3000 })] } }
       (Sparse.get s.here.im.copies 0).kind = .cpyt ∧ (Sparse.get s.here.im.copies 0).lend.toNat + 128 ≤ storeHi
      ∧ s.here.entryOf 0 ((s.x 6).setWidth 16) = some 0)
    ∧ (let s := alone { im := { procs := [(0, ready [(6, data 5)])], copies := [(0, { kind := .xout, id := 5, total := 4, sent := [{}] })] } }
       (Sparse.get s.here.im.copies 0).isLocal = false ∧ (Sparse.get s.here.im.copies 0).sent ≠ []
      ∧ s.here.entryOf 0 ((s.x 6).setWidth 16) = some 0)
    ∧ (let s := alone { im := { procs := [(0, ready [(6, data 5)])], copies := [(0, { kind := .cpy, id := 5, total := 4, src := 0x1000, dst := 0x2000, lend := 256, wrote := [3] })] } }
       let c := Sparse.get s.here.im.copies 0
       c.kind = .cpy ∧ c.wrote ≠ [] ∧ s.here.entryOf 0 ((s.x 6).setWidth 16) = some 0
      ∧ (c.element c.prog.toNat).2.1 + (unitBytes c.early c.prog.toNat (c.element c.prog.toNat).2.2).length ≤ wellLo)
    ∧ (Sparse.get copying.here.im.copies 0).wrote = []
    ∧ copying.here.fenceOver 0 2 = true ∧ copying.here.fenceOver 0 0 = false := by decide +kernel

/-! Channels, latches and processes. -/

/-- Slot 0 with the end 4, of a channel to end 7 of vtile 1. -/
def ended (e : End) : State := { vts := [(0, { im := { procs := [(0, ready [(8, data 16), (9, data 0)])], ends := [(4, e)] } }),
  (1, { num := 1 })] }
/-- The input end 4. -/
def inEnd (st : EndState) : End := { st := st, ov := true, input := true, pvt := 1, pend := 7 }
/-- The output end 4 with some of its fields. -/
def outEnd (st : EndState) : End := { st := st, ov := true, pvt := 1, pend := 7 }

theorem witness_TransferIssue :
    (∃ z, Rules.xfer (.send 8 4 9) = some z ∧ (ended {}).inMonitor = false ∧ (ended {}).here.replay = none
      ∧ ∃ f, (ended {}).xferFault z = some f)
    ∧ (∃ z, Rules.xfer (.send 8 4 9) = some z ∧ (ended (outEnd .closed)).xferFault z = none
      ∧ ((ended (outEnd .closed)).here.endAt z.e).gone = true)
    ∧ (∃ z, Rules.xfer (.send 8 4 9) = some z ∧ (ended (outEnd .idle)).xferFault z = none
      ∧ ((ended (outEnd .idle)).here.endAt z.e).gone = false ∧ ((ended (outEnd .idle)).here.endAt z.e).hold = false
      ∧ ((ended (outEnd .idle)).here.endAt z.e).po = false
      ∧ (ended (outEnd .idle)).past ((ended (outEnd .idle)).xferWait z) = false)
    ∧ (∃ z, Rules.xfer (.sendT 8 4 9) = some z ∧ (ended (outEnd .idle)).xferFault z = none
      ∧ (ended (outEnd .idle)).past ((ended (outEnd .idle)).xferWait z) = true)
    ∧ (let s := ended { outEnd .offered with po := true }
       ∃ z, Rules.xfer (.send 8 4 9) = some z ∧ s.xferFault z = none ∧ (s.here.endAt z.e).gone = false
      ∧ (s.here.endAt z.e).hold = false ∧ (s.here.endAt z.e).po = true ∧ (s.here.endAt z.e).ownedBy 0 = true) :=
  ⟨⟨_, rfl, by decide +kernel, by decide +kernel, _, rfl⟩, ⟨_, rfl, rfl, by decide +kernel⟩,
    ⟨_, rfl, rfl, by decide +kernel, by decide +kernel, by decide +kernel, by decide +kernel⟩,
    ⟨_, rfl, rfl, by decide +kernel⟩,
    ⟨_, rfl, rfl, by decide +kernel, by decide +kernel, by decide +kernel, by decide +kernel⟩⟩

theorem witness_TransferIssue_held :
    (let s := ended { inEnd .claimed with hold := true }
     ∃ z, Rules.xfer (.recv 8 4 9) = some z ∧ s.xferFault z = none ∧ (s.here.endAt z.e).gone = false
      ∧ (s.here.endAt z.e).hold = true ∧ (s.here.endAt z.e).ownedBy 0 = true ∧ (s.here.endAt z.e).input = true)
    ∧ (let s := ended { outEnd .claimed with hold := true, wgo := true }
       ∃ z, Rules.xfer (.send 8 4 9) = some z ∧ s.xferFault z = none ∧ (s.here.endAt z.e).gone = false
      ∧ (s.here.endAt z.e).hold = true ∧ (s.here.endAt z.e).wgo = true)
    ∧ (let s := ended { outEnd .claimed with hold := true }
       ∃ z, Rules.xfer (.send 8 4 9) = some z ∧ s.xferFault z = none ∧ (s.here.endAt z.e).hold = true
      ∧ (s.here.endAt z.e).ownedBy 0 = true ∧ (s.here.endAt z.e).wgo = false) :=
  ⟨⟨_, rfl, rfl, by decide +kernel, by decide +kernel, by decide +kernel, by decide +kernel⟩,
    ⟨_, rfl, rfl, by decide +kernel, by decide +kernel, by decide +kernel⟩,
    ⟨_, rfl, rfl, by decide +kernel, by decide +kernel, by decide +kernel⟩⟩

/-- The channel's peer here, and on another panel through port 0. -/
theorem witness_TransferIssue_peer :
    Rules.peerHere (ended (outEnd .idle)) 4
    ∧ (let s : State := { ended { outEnd .idle with xp := true } with
         links := [(opticalBase, { rate := 100 })], optPorts := [(0, { lanes := [0] })] }
       Rules.peerHere s 4 ∧ (s.here.endAt 4).xp = true) := by
  simp only [Rules.peerHere]
  decide +kernel

/-- Slot 0 with the end 4 and both masks in g8 and g10 naming it alone. -/
def selecting (e : End) : State := { vts := [(0, { im := { procs := [(0, ready [(8, data 16), (10, data 16)])], ends := [(4, e)] } })] }

theorem witness_SelectIssue :
    (∃ h, (selecting { outEnd .claimed with hold := true }).here.heldEnd 0 = some h)
    ∧ ((selecting {}).here.heldEnd 0 = none
      ∧ ∃ f, (Rules.selectWait (selecting {}) 8 0 9 10 false).guards.findSome? ((selecting {}).here.guardFault 0) = some f)
    ∧ (let s := selecting (outEnd .closed)
       s.here.heldEnd 0 = none ∧ (Rules.selectWait s 8 0 9 10 false).guards.findSome? (s.here.guardFault 0) = none
      ∧ ∀ e, e ∈ (Rules.selectWait s 8 0 9 10 false).guards → (s.here.endAt e).gone = true)
    ∧ (let s := selecting (outEnd .idle)
       s.here.heldEnd 0 = none ∧ (Rules.selectWait s 8 0 9 10 false).guards.findSome? (s.here.guardFault 0) = none
      ∧ (∃ e, e ∈ (Rules.selectWait s 8 0 9 10 false).guards ∧ (s.here.endAt e).gone = false)
      ∧ (∀ e, e ∈ (Rules.selectWait s 8 0 9 10 false).guards → (s.here.endAt e).gone = false → s.askable 0 e = false)
      ∧ s.past (Rules.selectWait s 8 0 9 10 false) = false
      ∧ ∀ e, e ∈ (Rules.selectWait s 8 0 9 10 false).guards → (s.here.endAt e).gone = false →
        Rules.peerHere s e ∧ (s.here.endAt e).xp = false) :=
  ⟨⟨_, rfl⟩, ⟨by decide +kernel, _, rfl⟩, by decide +kernel,
    ⟨by decide +kernel, by decide +kernel, ⟨4, by decide +kernel, by decide +kernel⟩, by decide +kernel, by decide +kernel,
      by simp only [Rules.peerHere]; decide +kernel⟩⟩

/-- A select with a ready guard: the end has an offer of its peer recorded. -/
theorem witness_SelectIssue_asks :
    (let s : State := { selecting { outEnd .offered with po := true } with vts := [(0, { im := {
       procs := [(0, ready [(8, data 16), (10, data 16)])], ends := [(4, { outEnd .offered with po := true })] } }), (1, { num := 1 })] }
     s.here.heldEnd 0 = none ∧ (Rules.selectWait s 8 0 9 10 false).guards.findSome? (s.here.guardFault 0) = none
      ∧ (Rules.rotation s (Rules.selectWait s 8 0 9 10 false)).find? (s.askable 0) = some 4 ∧ Rules.peerHere s 4) :=
  ⟨by decide +kernel, by decide +kernel, by decide +kernel, by decide +kernel, by decide +kernel, by decide +kernel,
    by decide +kernel⟩

theorem witness_EndInspection :
    ((ended {}).inMonitor = false ∧ ((ended {}).here.endAt 4).st = .unbound)
    ∧ (let s := ended { outEnd .idle with owner := 3 }
       (s.here.endAt 4).st ≠ .unbound ∧ (s.here.endAt 4).ownedBy s.cur.who = false)
    ∧ (let s := ended (outEnd .idle)
       (s.here.endAt 4).st ≠ .unbound ∧ (s.here.endAt 4).ownedBy s.cur.who = true ∧ (s.here.endAt 4).st ≠ .claimed
      ∧ (s.here.endAt 4).st ≠ .transferring ∧ (s.here.proc ((s.x 9).toNat % 8)).st = .ready)
    ∧ (let s := ended { outEnd .claimed with hold := true }
       (s.here.endAt 4).ownedBy s.cur.who = true ∧ (s.here.endAt 4).st = .claimed)
    ∧ (let s : State := { vts := [(0, { im := { procs := [(0, ready [(8, data 3)])], ends := [(4, { outEnd .offered with oo := true })] } }),
          (1, { num := 1 })] }
       (s.here.endAt 4).st = .offered ∧ (s.here.endAt 4).ownedBy s.cur.who = true ∧ (s.here.endAt 4).inbuf = none
      ∧ (s.x 8).toNat % 8 ≠ s.cur.who ∧ (s.here.proc ((s.x 8).toNat % 8)).st = .empty ∧ (s.here.endAt 4).xp = false) := by
  decide +kernel

/-- Slot 0 is a member of latch 3, whose home is vtile 0. -/
def latched (r : LatchRec) (lp : Nat) : State := { vts := [(0, { im := {
  procs := [(0, { ready [(8, data lp)] with memb := 8 })], recs := [(3, r)] } })], nets := [(0, { latches := [(3, {})] })] }

theorem witness_LatchInstructions :
    (addr.inMonitor = false ∧ addr.proc.memb.getLsbD (3 : BitVec 8).toNat = false)
    ∧ ((latched { arr := 1 } 0).proc.memb.getLsbD 3 = true
      ∧ ((latched { arr := 1 } 0).here.latch 3).arr.getLsbD (latched { arr := 1 } 0).cur.who = true)
    ∧ (((latched {} 0).here.latch 3).arr.getLsbD (latched {} 0).cur.who = false ∧ (latched {} 0).here.replay = none
      ∧ (latched {} 0).latHome 0 3 < 2 ^ 60 ∧ ((latched {} 0).tile ((latched {} 0).latHome 0 3)).lost = false)
    ∧ 0 ≤ (((latched {} 0).here.latch 3).lp - ((latched {} 0).x 8).setWidth 16).toInt
    ∧ (((latched {} 1).here.latch 3).lp - ((latched {} 1).x 8).setWidth 16).toInt < 0 := by decide +kernel

/-- Eight READY slots; the pool holds n entries. -/
def crowded (n : Nat) : State := alone { im := {
  procs := (List.range 8).map (fun q => (q, ready [])), pool := List.replicate n {} } }

theorem witness_ProcessLifetime :
    (addr.inMonitor = false ∧ addr.cur.who < 8 ∧ addr.proc.st = .ready ∧ addr.spawnsOut 0 = false
      ∧ addr.here.im.pool = [] ∧ addr.here.emptySlot = some 1)
    ∧ ((crowded 0).proc.st = .ready ∧ (crowded 0).here.emptySlot = none ∧ (crowded 0).here.im.pool.length < 8)
    ∧ ((crowded 8).proc.st = .ready ∧ (crowded 8).here.emptySlot = none ∧ 8 ≤ (crowded 8).here.im.pool.length)
    ∧ Rules.outstanding addr.here 0 = false ∧ Rules.outstanding copying.here 0 = true
    ∧ (((ended (outEnd .idle)).here.endAt 4).st ≠ .unbound ∧ ((ended (outEnd .idle)).here.endAt 4).ownedBy 0 = true) := by
  decide +kernel

/-! Status words, faults, the return from them, and the monitor. -/

theorem witness_StatusTimeAndStream : (11 : BitVec 5).toNat ≤ 11 ∧ addr.here.replay = none := by decide +kernel

/-- Slot 0 with n fault records held. -/
def recorded (n : Nat) : State := alone { vtileOf (ready []) with fqtl := BitVec.ofNat 5 n }

theorem witness_TakingAFault :
    (addr.here.replay = none ∧ addr.cur.who < 8 ∧ codeBrk ≠ codePage ∧ addr.here.held < 16 ∧ addr.here.fqwait = [])
    ∧ 16 ≤ (recorded 16).here.held
    ∧ addr.here.outstanding 3 = false
    ∧ (let s := alone { vtileOf (ready []) with pages := [{ page := 3 }] }
       s.here.outstanding ((3 : Word).setWidth 14 : BitVec 14).toNat = true ∧ ∃ r, r ∈ s.here.pages ∧ r.page = 3) := by
  refine ⟨by decide +kernel, by decide +kernel, by decide +kernel, by decide +kernel, ?_⟩
  exact ⟨{ page := 3 }, by decide +kernel, by decide +kernel⟩
theorem witness_TrapsAndPrivilege :
    (mon [] {}).inMonitor = true ∧ addr.inMonitor = false
    ∧ (Rules.monitorWord (.eret 5) ∧ (encode (.eret 5)).isSome = true)
    ∧ (Rules.processWord .exit ∧ (encode .exit).isSome = true) :=
  ⟨by decide +kernel, by decide +kernel, ⟨trivial, rfl⟩, ⟨trivial, rfl⟩⟩

theorem witness_ReturnFromFault :
    (let s := mon [] { st := .parked }
     s.inMonitor = true ∧ (s.here.proc 0).st = .parked ∧ (s.here.proc 0).pwait = none ∧ s.here.freeze = none)
    ∧ (let s := alone { im := { procs := [(0, { st := .parked }), (8, {})] }, freeze := some {} }
       (s.here.proc 0).st = .parked ∧ s.here.freeze ≠ none)
    ∧ (((mon [] { st := .parked, pwait := some 3 }).here.proc 0).pwait ≠ none)
    ∧ (((mon [] { st := .frozen, efp := true }).here.proc 0).st = .frozen
      ∧ ((mon [] { st := .frozen, efp := true }).here.proc 0).efp = true)
    ∧ ((mon [] (ready [])).here.proc 0).st = .ready := by decide +kernel

theorem witness_SlotAccess_image :
    (let s := mon [(6, data 0x208)] (ready [])
     s.inMonitor = true ∧ 0x208 < 0x6000 ∧ (s.x 6).toNat % 65536 / 8 * 8 = 0x208 ∧ (s.here.proc (0x208 / 0xC00)).st = .ready
      ∧ s.here.freeze = none)
    ∧ (let s := mon [(6, data 0x5FF8)] (ready [])
       (s.x 6).toNat % 65536 / 8 * 8 = 0x5FF8 ∧ (s.here.proc (0x5FF8 / 0xC00)).st ≠ .ready
      ∧ (s.here.proc (0x5FF8 / 0xC00)).st ≠ .blocked)
    ∧ (let s : State := { vts := [(0, { im := { procs := [(8, ready [(6, data 0x6000), (7, data 0xFF08), (9, data 8)])] }, freeze := some {} })]
                          cur := { vt := 0, who := 8 } }
       (s.x 6).toNat % 65536 / 8 * 8 = 0x6000 ∧ s.here.freeze ≠ none ∧ Rules.codesUsed 0x6000 (s.x 9)
      ∧ (s.x 7).toNat % 65536 / 8 * 8 = 0xFF08 ∧ Rules.codesUsed 0xFF08 (s.x 9)) := by
  refine ⟨by decide +kernel, by decide +kernel, by decide +kernel, by decide +kernel, ?_, by decide +kernel, ?_⟩ <;>
    refine ⟨by decide +kernel, by decide +kernel, by decide +kernel, by decide +kernel⟩

theorem witness_SlotAccess_control :
    (let s := mon [(6, data 0x208), (7, data 1), (8, data 3), (9, data 2)] (ready [])
     (s.x 7).toNat % 4 = 1 ∧ (s.x 8).toNat % 4 = 3 ∧ (s.x 9).toNat % 4 = 2 ∧ (s.here.proc 0).st = .ready)
    ∧ (let s := mon [(6, data 0x208), (9, data 2)] { st := .parked }
       (s.here.proc 0).st = .parked ∧ (s.x 9).toNat % 4 = 2 ∧ s.here.busy 0 = false)
    ∧ (let s := mon [] { st := .frozen }
       (s.x 6).toNat % 4 = 0 ∧ (s.here.proc 0).st = .frozen ∧ (s.here.proc 0).bySlotctl = false)
    ∧ (let s := mon [] { st := .frozen, bySlotctl := true, prior := .ready }
       (s.here.proc 0).bySlotctl = true ∧ s.here.freeze = none ∧ (s.here.proc 0).prior = .ready ∧ s.msgs = [])
    ∧ (let s := mon [] { st := .frozen, bySlotctl := true, prior := .blocked, wait := { kind := .latwait, target := 1 } }
       (s.here.proc 0).prior = .blocked ∧ (s.here.proc 0).efp = false ∧ (s.here.proc 0).wait.timed = false
      ∧ s.here.waitOver 0 = false)
    ∧ (let s : State := { vts := [(0, { im := {
          procs := [(0, { st := .frozen, bySlotctl := true, prior := .blocked, wait := { kind := .select, endMask := 16, guardMask := 16 } }), (8, ready [])]
          ends := [(4, { outEnd .offered with oo := true })] } })], cur := { vt := 0, who := 8 } }
       (s.here.proc 0).prior = .blocked ∧ (s.here.proc 0).wait.timed = false ∧ s.here.waitOver 0 = false
      ∧ (s.here.proc 0).wait.kind = .select ∧ (s.here.proc 0).wait.asking = none ∧ (s.here.proc 0).wait.deferred = []
      ∧ s.here.usable 0 = [4] ∧ (s.here.endAt 4).oo = true ∧ s.askable s.cur.vt 4 = false) := by decide +kernel

theorem witness_MonitorWords : (mon [(6, data 3)] {}).inMonitor = true ∧ (mon [(6, data 3)] {}).here.writing = false ∧ ((mon [(6, data 3)] {}).x 6).toNat % 2 ^ 14 = 3 := by
  decide +kernel

/-! Messages. -/

/-- A panel after bring-up whose vtile 0 is that of the active tenant of partition 0, with messages in flight. -/
def panel (v : VTile) (l : List Msg) : State :=
  { vts := [(0, v)], msgs := l, up := { phase := 7, reset := false, hostLink := true }, parts := [(0, { regions := 1, v0 := true, state := 1, tiles := [0] })] }
/-- A message from end 7 of vtile 1 to end 4 of vtile 0. -/
def toEnd (m : MsgKind) : Msg := { src := ⟨1, 7⟩, dst := ⟨0, 4⟩, kind := m }
/-- Slot 0 BLOCKED in a transfer of the end 4. -/
def blockedIn (w : Wait) : Proc := { st := .blocked, wait := { w with kind := .channel, endIdx := 4 } }
/-- The end 4 of slot 0, with a message for it in flight. -/
def meets (e : End) (w : Wait) (m : MsgKind) : State :=
  panel { im := { procs := [(0, blockedIn w)], ends := [(4, e)] } } [toEnd m]

/-- The message is taken, and its end's peer stands. -/
theorem witness_ClaimMessages_taken :
    (let s := meets (outEnd .idle) {} (.offer false 0)
     Rules.taken s (toEnd (.offer false 0)) ∧ (Rules.target s (toEnd (.offer false 0))).oo = false
      ∧ (Rules.target s (toEnd (.offer false 0))).st = .idle)
    ∧ (let s := meets (outEnd .claimed) {} (.offer false 0)
       Rules.taken s (toEnd (.offer false 0)) ∧ (Rules.target s (toEnd (.offer false 0))).st ≠ .idle
      ∧ (Rules.target s (toEnd (.offer false 0))).st ≠ .offered)
    ∧ Rules.taken (meets (outEnd .offered) {} .withdrawal) (toEnd .withdrawal)
    ∧ Rules.peerStands (meets (outEnd .offered) {} .withdrawal) 0 4
    ∧ Rules.asks (toEnd (.claim false true 5)) .claimArrives false true 5
    ∧ Rules.asks (toEnd (.confirm true)) .confirmationRequestArrives true true 0 :=
  ⟨by decide +kernel, by decide +kernel, by decide +kernel,
    ⟨by decide +kernel, by decide +kernel, by decide, by decide +kernel⟩, .inl ⟨rfl, rfl⟩,
    .inr ⟨rfl, rfl, rfl, rfl⟩⟩

theorem witness_ClaimMessages_claims :
    (let s := meets { inEnd .offered with oo := true } {} (.claim false true 0)
     let m := toEnd (.claim false true 0)
     Rules.taken s m ∧ Rules.offering s m .channel ∧ s.past (s.waitOf m.dst.vt m.dst.idx) = false
      ∧ (Rules.target s m).input = true)
    ∧ (let s := meets { outEnd .offered with oo := true } {} (.claim false true 0)
       let m := toEnd (.claim false true 0)
       Rules.taken s m ∧ Rules.offering s m .channel ∧ (Rules.target s m).input = false)
    ∧ (let s := panel { im := { procs := [(0, { st := .blocked, wait := { kind := .select, endMask := 16, guardMask := 16 } })]
                                ends := [(4, { outEnd .offered with oo := true })] } } [toEnd (.confirm true)]
       let m := toEnd (.confirm true)
       Rules.taken s m ∧ Rules.offering s m .select ∧ (s.waitOf m.dst.vt m.dst.idx).asking = none
      ∧ s.past (s.waitOf m.dst.vt m.dst.idx) = false ∧ (s.procAt m.dst.vt (s.ownerOf m.dst.vt m.dst.idx)).pendFault = [])
    ∧ (let s := meets (inEnd .idle) {} (.claim true true 5)
       let m := toEnd (.claim true true 5)
       Rules.taken s m ∧ (Rules.target s m).oo = false ∧ (Rules.target s m).st = .idle) := by
  decide +kernel

theorem witness_ClaimMessages_answers :
    (let s := meets { inEnd .claimed with claiming := true } {} (.grant false)
     let m := toEnd (.grant false)
     Rules.taken s m ∧ (Rules.target s m).claiming = true ∧ (Rules.target s m).st = .claimed
      ∧ (Rules.target s m).input = true ∧ (s.waitOf m.dst.vt m.dst.idx).kind = .channel)
    ∧ (let s := meets { outEnd .claimed with claiming := true } {} (.grant true)
       let m := toEnd (.grant true)
       Rules.taken s m ∧ (Rules.target s m).claiming = true ∧ (Rules.target s m).input = false)
    ∧ (let s := meets { outEnd .claimed with claiming := true } {} (.grant false)
       let m := toEnd (.grant false)
       Rules.taken s m ∧ (Rules.target s m).claiming = true ∧ (Rules.target s m).input = false ∧ s.active m.dst.vt = true)
    ∧ (let s := panel { im := {
         procs := [(0, { st := .blocked, wait := { kind := .select, endMask := 16, guardMask := 16, asking := some 4 } })]
         ends := [(4, { outEnd .claimed with claiming := true })] } } [toEnd (.grant true)]
       let m := toEnd (.grant true)
       Rules.taken s m ∧ (Rules.target s m).claiming = true ∧ (s.waitOf m.dst.vt m.dst.idx).kind = .select
      ∧ (s.waitOf m.dst.vt m.dst.idx).deferred = [] ∧ (s.procAt m.dst.vt (s.ownerOf m.dst.vt m.dst.idx)).pendFault = [])
    ∧ (let s := meets { outEnd .claimed with claiming := true } {} .refusal
       let m := toEnd .refusal
       Rules.taken s m ∧ (Rules.target s m).claiming = true ∧ (Rules.target s m).po = false
      ∧ (s.procAt m.dst.vt (s.ownerOf m.dst.vt m.dst.idx)).pendFault = []
      ∧ (s.waitOf m.dst.vt m.dst.idx).kind = .channel ∧ (s.waitOf m.dst.vt m.dst.idx).endIdx = m.dst.idx
      ∧ (s.waitOf m.dst.vt m.dst.idx).deferred = [] ∧ (s.waitOf m.dst.vt m.dst.idx).dropped = none
      ∧ s.past (s.waitOf m.dst.vt m.dst.idx) = false)
    ∧ (let s := meets { outEnd .claimed with claiming := true, claimWait := true } { timed := true, deadline := 0, sReg := 5 } .refusal
       let m := toEnd .refusal
       Rules.taken s m ∧ (Rules.target s m).claiming = true ∧ (Rules.target s m).oo = false
      ∧ s.past (s.waitOf m.dst.vt m.dst.idx) = true ∧ (s.waitOf m.dst.vt m.dst.idx).sReg ≠ 0)
    ∧ (let s := meets { outEnd .claimed with wgo := true, hold := true } {} (.go 0)
       Rules.taken s (toEnd (.go 0)) ∧ (Rules.target s (toEnd (.go 0))).wgo = true ∧ (Rules.target s (toEnd (.go 0))).hold = true)
    ∧ (let s := meets { outEnd .claimed with wgo := true } {} (.go 0)
       Rules.taken s (toEnd (.go 0)) ∧ (Rules.target s (toEnd (.go 0))).wgo = true ∧ (Rules.target s (toEnd (.go 0))).hold = false) := by
  decide +kernel

/-- The data of a word, and of a vector. -/
def word7 : MsgKind := .flits 0 7 0 0 []
/-- The data of a block of 64 bytes. -/
def block64 : MsgKind := .flits 2 0 0x1000 64 (List.replicate 64 9)
/-- The data of a vector. -/
def vec7 : MsgKind := .flits 1 7 0 0 []
/-- The end 4 with data landing, and the last byte about to be written. -/
def landing (kind : Nat) (w : Wait) (m : MsgKind) : State :=
  { meets { inEnd .transferring with inbuf := some (toEnd m), kind := kind } w .close with msgs := [], arg := { e := 4 } }

theorem witness_DataArrives :
    (let s := meets (inEnd .claimed) {} word7
     let m := toEnd word7
     Rules.taken s m ∧ (Rules.target s m).st = .claimed ∧ (Rules.target s m).input = true ∧ (Rules.target s m).hold = false
      ∧ (Rules.target s m).ov = true)
    ∧ (let s := landing 0 { op := .recv, dReg := 5, sReg := 6 } word7
       (s.arg.k = 0 ∧ s.arg.e = 4 ∧ s.arg.c = 0 ∧ s.replaying 0 = false) ∧ (s.endAt 0 4).inbuf = some (toEnd word7)
      ∧ s.wellWaits 0 (s.endAt 0 4).land = false ∧ (s.endAt 0 4).kind = 0 ∧ (s.endAt 0 4).ov = true
      ∧ (s.endAt 0 4).oo = false ∧ (s.endAt 0 4).po = false ∧ (s.endAt 0 4).wrote = [] ∧ Rules.waits s 0 4
      ∧ (s.waitOf 0 4).op = .recv ∧ (s.waitOf 0 4).dReg ≠ 0 ∧ (s.waitOf 0 4).dReg ≠ (s.waitOf 0 4).sReg)
    ∧ (let s := landing 1 { op := .recvv, dReg := 5, sReg := 6 } vec7
       s.replaying 0 = false ∧ (s.endAt 0 4).inbuf = some (toEnd vec7) ∧ (s.endAt 0 4).kind = 1 ∧ Rules.waits s 0 4
      ∧ (s.waitOf 0 4).op = .recvv ∧ (s.procAt 0 0).pops 5 = false ∧ (s.procAt 0 0).appends 5 = false)
    ∧ (let s := meets (outEnd .transferring) { op := .send, sReg := 6 } (.ack 0)
       let m := toEnd (.ack 0)
       Rules.taken s m ∧ (Rules.target s m).st = .transferring ∧ (Rules.target s m).input = false
      ∧ (Rules.target s m).oo = false ∧ (Rules.target s m).po = false ∧ Rules.waits s 0 4 ∧ (s.waitOf 0 4).op = .send) := by
  decide +kernel

theorem witness_DataArrives_block :
    let s : State := { landing 2 { op := .recvb, sReg := 6, addr := 0x1000, len := 64 } block64 with
      vts := [(0, { im := {
        procs := [(0, blockedIn { op := .recvb, sReg := 6, addr := 0x1000, len := 64 })]
        ends := [(4, { inEnd .transferring with inbuf := some (toEnd block64), kind := 2, land := 0x1000, moved := 64 })] } })] }
    ((s.arg.k = 0 ∧ s.arg.e = 4 ∧ s.arg.c = 0 ∧ s.replaying 0 = false) ∧ (s.endAt 0 4).inbuf = some (toEnd block64)
      ∧ s.wellWaits 0 (s.endAt 0 4).land = false ∧ (s.endAt 0 4).kind = 2 ∧ (s.endAt 0 4).ov = true
      ∧ (s.endAt 0 4).oo = false ∧ (s.endAt 0 4).po = false ∧ (s.endAt 0 4).wrote = [])
    ∧ (Rules.waits s 0 4 ∧ (s.waitOf 0 4).op = .recvb ∧ (s.endAt 0 4).moved ≤ (List.replicate 64 (9 : Byte)).length
      ∧ (s.endAt 0 4).land + (s.endAt 0 4).moved ≤ wellLo) ∧ Rules.peerStands s 0 4 := by
  simp only [Rules.peerStands]
  decide +kernel

theorem witness_MatchesEnd :
    (let s := meets { outEnd .offered with oo := true } { op := .send, sReg := 6 } .close
     let m := toEnd .close
     Rules.taken s m ∧ Rules.openEnd (Rules.target s m) ∧ (Rules.target s m).inbuf = none
      ∧ (s.procAt 0 (s.ownerOf 0 4)).inSelect 4 = false ∧ (Rules.target s m).ov = true ∧ (Rules.target s m).hold = false
      ∧ Rules.waits s 0 4)
    ∧ (let s := meets { outEnd .offered with oo := true } { op := .send, sReg := 6, timed := true, deadline := 0 } .close
       s.arg.k = 0 ∧ s.arg.q = 0 ∧ s.replaying 0 = false ∧ (s.procAt 0 0).st = .blocked ∧ (s.procAt 0 0).wait.kind = .channel
      ∧ (s.procAt 0 0).wait.endIdx = 4 ∧ s.past (s.procAt 0 0).wait = true ∧ (s.endAt 0 4).oo = true
      ∧ (s.endAt 0 4).st = .offered ∧ (s.endAt 0 4).claiming = false ∧ (s.procAt 0 0).wait.rep = none
      ∧ (s.procAt 0 0).wait.sReg ≠ 0 ∧ (s.procAt 0 0).pendFault = []) := by decide +kernel

/-- Both ends of a channel between vtiles 0 and 1 in a transfer, a message between them. -/
def failing : State :=
  { vts := [(0, { im := { procs := [(0, blockedIn { op := .send, sReg := 6 })], ends := [(4, outEnd .transferring)] } }),
      (1, { num := 1, im := {
        procs := [(0, { st := .blocked, wait := { kind := .channel, endIdx := 7, op := .recv, sReg := 6 } })]
        ends := [(7, { inEnd .claimed with pvt := 0, pend := 4 })] } })]
    msgs := [toEnd .refusal]
    parts := [(0, { regions := 1, v0 := true, state := 1, tiles := [0, 1] })] }

theorem witness_MatchesEnd_dropped :
    (failing.msgs[failing.arg.n]? = some (toEnd .refusal) ∧ failing.presenting = false ∧ failing.arg.c = 0
      ∧ failing.arg.ok = false ∧ failing.replaying 0 = false ∧ failing.replaying 1 = false)
    ∧ Rules.fails failing (toEnd .refusal) .deliveryFails
    ∧ Rules.droppable failing (toEnd .refusal).src ∧ Rules.droppable failing (toEnd .refusal).dst
    ∧ Rules.droppable failing { vt := 2 ^ 60, idx := 4 } :=
  ⟨by decide +kernel, .inl ⟨rfl, rfl, .inl ⟨rfl, rfl⟩⟩, .inr (by decide +kernel), .inr (by decide +kernel), .inl (by decide)⟩

/-- The vtile 1 stands on the tile 1, to which the express and mesh links are missing; and a recvb whose block of 64 bytes
fails to land, or of which it knows the length alone. -/
theorem witness_MatchesEnd_zeroed :
    (let s : State := { failing with
       vts := failing.vts.map (fun v => (v.1, { v.2 with ptile := v.1 })), links := (List.range 14593).map (fun l => (l, { cond := 15 })) }
     s.msgs[s.arg.n]? = some (toEnd .refusal) ∧ s.cutOff (toEnd .refusal) = true)
    ∧ (let s : State := { meets { inEnd .transferring with inbuf := some (toEnd block64), kind := 2 }
         { op := .recvb, sReg := 6, addr := 0x1000, len := 32 } .close with msgs := [], arg := { e := 4, ok := true } }
       Rules.fails s (toEnd block64) .deliveryFails ∧ (s.waitOf 0 4).op = .recvb ∧ Rules.incoming (s.endAt 0 4) 64
      ∧ min 64 (s.waitOf 0 4).len = 32)
    ∧ Rules.incoming { inEnd .claimed with peerLen := 128 } 128 :=
  ⟨by decide +kernel, ⟨.inl ⟨rfl, rfl, .inr ⟨rfl, rfl⟩⟩, rfl, .inl ⟨_, _, _, _, rfl, rfl⟩, by decide +kernel⟩,
    .inr ⟨rfl, rfl, by decide⟩⟩

/-- A message for latch 3, whose home is vtile 0. -/
def toLatch (m : MsgKind) : Msg := { src := ⟨1, 259⟩, dst := ⟨0, 259⟩, kind := m }
/-- The home of latch 3 with two members expected and c counted, and a message for it. -/
def home (c : BitVec 16) (m : MsgKind) : State :=
  panel { im := { homes := [(3, { e := 2, c := c })] } } [toLatch m]

theorem witness_LatchMessagesArrive :
    (Rules.taken (home 0 .latArrive) (toLatch .latArrive) ∧ ((home 0 .latArrive).homeAt 0 3).e ≠ 0
      ∧ ((home 0 .latArrive).homeAt 0 3).c + 1 ≠ ((home 0 .latArrive).homeAt 0 3).e)
    ∧ (Rules.taken (home 1 .latArrive) (toLatch .latArrive)
      ∧ ((home 1 .latArrive).homeAt 0 3).c + 1 = ((home 1 .latArrive).homeAt 0 3).e)
    ∧ Rules.taken (home 0 .latDrop) (toLatch .latDrop) ∧ Rules.taken (home 1 .latDrop) (toLatch .latDrop)
    ∧ (256 ≤ (toLatch .latArrive).dst.idx ∧ ((home 1 .latArrive).tile 0).replay = none
      ∧ ∀ j, j ∈ ((home 1 .latArrive).homeAt 0 3).counted ∨ j = (toLatch .latArrive).src.vt →
        j < 2 ^ 60 ∧ ((home 1 .latArrive).tile j).lost = false)
    ∧ Rules.taken (home 0 (.latLeave 0)) (toLatch (.latLeave ((home 0 (.latLeave 0)).homeAt 0 3).p))
    ∧ Rules.taken (home 0 (.latLeave (-1))) (toLatch (.latLeave (((home 0 (.latLeave (-1))).homeAt 0 3).p - 1)))
    ∧ Rules.taken (home 0 (.latPhase 1)) (toLatch (.latPhase 1)) := by
  refine ⟨by decide +kernel, by decide +kernel, by decide +kernel, by decide +kernel, ⟨by decide, by decide +kernel, ?_⟩,
    by decide +kernel, by decide +kernel, by decide +kernel⟩
  intro j h
  have e : j = 1 := h.resolve_left (fun h => absurd h List.not_mem_nil)
  subst e
  decide +kernel

/-- Data whose header waits, from vtile 1 of the next tile to vtile 0. -/
def onRoute (l : List Msg) (taken : Nat) : State :=
  { panel { ptile := 1 } ({ toEnd word7 with parked := true, taken := taken } :: l) with
    vts := [(0, { ptile := 1 }), (1, { num := 1 })] }

theorem witness_Routers :
    (let s := onRoute [] 0
     ∃ m, s.msgs[s.arg.n]? = some m ∧ m.parked = true ∧ m.isData = true ∧ isFar m.dst = false ∧ s.cutOff m = false ∧ s.frozenSide m = false ∧ Machine.Msg.isBlock m = false
      ∧ (s.msgRoute m).drop m.taken ≠ [] ∧ (∀ l, l ∈ (s.msgRoute m).drop m.taken → s.linkFull l = false)
      ∧ (s.msgRoute m).Nodup)
    ∧ (let s := onRoute (List.replicate 4 (toEnd word7)) 0
       ∃ m l r, s.msgs[s.arg.n]? = some m ∧ m.parked = true ∧ s.cutOff m = false ∧ (s.msgRoute m).drop m.taken = l :: r ∧ s.linkFull l = true)
    ∧ (let s := panel { freeze := some {} } [{ toEnd word7 with parked := true }]
       ∃ m, s.msgs[s.arg.n]? = some m ∧ m.parked = true ∧ s.cutOff m = false ∧ s.frozenSide m = true)
    ∧ (let s := { panel {} [{ toEnd .refusal with tile := 5 }] with ptiles := [(5, { stub := some 0 })] }
       ∃ m p, s.msgs[s.arg.n]? = some m ∧ m.back = false ∧ isFar m.dst = false ∧ m.tile ≠ (s.tile m.dst.vt).ptile
        ∧ s.mapping m.tile = false ∧ (Sparse.get s.ptiles m.tile).stub = some p)
    ∧ (let s := panel {} [{ toEnd .refusal with tile := 5 }]
       ∃ m, s.msgs[s.arg.n]? = some m ∧ m.back = false ∧ (Sparse.get s.ptiles m.tile).stub = none)
    ∧ (let s := panel {} [{ toEnd .refusal with back := true }]
       ∃ m, s.msgs[s.arg.n]? = some m ∧ m.back = true) :=
  ⟨⟨_, rfl, rfl, rfl, by decide +kernel, by decide +kernel, by decide +kernel, by decide +kernel, by decide +kernel,
      by decide +kernel, by decide +kernel⟩,
    ⟨_, _, _, rfl, rfl, by decide +kernel, rfl, by decide +kernel⟩, ⟨_, rfl, rfl, by decide +kernel, by decide +kernel⟩,
    ⟨_, _, rfl, rfl, by decide +kernel, by decide +kernel, by decide +kernel, rfl⟩, ⟨_, rfl, rfl, by decide +kernel⟩,
    ⟨_, rfl, rfl⟩⟩

theorem witness_DeadboltProbes :
    (let s := panel { im := { procs := [(0, { st := .blocked, btime := 0x100000, wait := { kind := .latwait } })] } } []
     (s.procAt 0 0).st = .blocked ∧ (s.procAt 0 0).dlthr ≠ 0 ∧ (s.procAt 0 0).probe = none
      ∧ max 1024 (s.procAt 0 0).dlthr.toNat ≤ (s.procAt 0 0).btime.toNat ∧ s.still 0 = false)
    ∧ (let s := panel { im := { procs := [(0, { st := .blocked, probe := some { visit := [(0, 1)] } })] } } []
       ∃ b j r l, (s.procAt 0 0).probe = some b ∧ b.visit = (j, r) :: l ∧ s.edges j r = none)
    ∧ (let p : Proc := { st := .blocked, wait := { kind := .latwait, word := (encode (.latwait 5 3)).getD 0, target := 1 } }
       let s := panel { im := { procs := [(0, { p with
         probe := some { visit := [(0, 0)], found := [(0, 0, 0)], second := true } })] } } []
       ∃ b j r l, (s.procAt 0 0).probe = some b ∧ b.visit = (j, r) :: l ∧ (s.edges j r).isSome = true ∧ b.second = true
        ∧ b.genOf j r = some (s.procAt j r).gen)
    ∧ (let p : Proc := { st := .blocked, wait := { kind := .latwait, word := (encode (.latwait 5 3)).getD 0, target := 1 } }
       let s := panel { im := { procs := [(0, { p with probe := some { visit := [(0, 0)] } })] } } []
       ∃ b j r l es, (s.procAt 0 0).probe = some b ∧ b.visit = (j, r) :: l ∧ s.edges j r = some es ∧ b.second = false)
    ∧ (let s := panel { im := { procs := [(0, { st := .blocked, probe := some { found := [(0, 0, 0)] } })] } } []
       ∃ b, (s.procAt 0 0).probe = some b ∧ b.visit = [] ∧ b.second = false)
    ∧ (let p : Proc := { st := .blocked, wait := { kind := .latwait } }
       let s := panel { im := { procs := [(0, { p with probe := some { found := [(0, 0, 0)], second := true } })] } } []
       ∃ b, s.presenting = false ∧ (s.procAt 0 0).probe = some b ∧ b.second = true ∧ b.visit = []
        ∧ b.found = [(0, 0, 0)] ∧ (s.procAt 0 0).gen = 0 ∧ (s.procAt 0 0).wait.kind = .latwait
        ∧ (s.procAt 0 0).wait.rep = none ∧ (s.procAt 0 0).pendFault = [])
    ∧ (let s := panel { im := { procs := [(0, { st := .blocked, gen := 1, probe := some { found := [(0, 0, 0)], second := true } })] } } []
       ∃ b, (s.procAt 0 0).probe = some b ∧ b.found = [(0, 0, 0)] ∧ (s.procAt 0 0).gen ≠ 0) :=
  ⟨by decide +kernel, ⟨_, _, _, _, rfl, rfl, by decide +kernel⟩,
    ⟨_, _, _, _, rfl, rfl, by decide +kernel, rfl, by decide +kernel⟩,
    ⟨_, _, _, _, _, rfl, rfl, rfl, rfl⟩, ⟨_, rfl, rfl, rfl⟩,
    ⟨_, by decide +kernel, rfl, rfl, rfl, rfl, by decide +kernel, by decide +kernel, by decide +kernel, by decide +kernel⟩,
    ⟨_, rfl, rfl, by decide +kernel⟩⟩

/-- A process with T set BLOCKED in a transfer, and one BLOCKED in a select, each found by its own probe. -/
theorem witness_DeadboltProbes_offers :
    (let p : Proc := { st := .blocked, dlT := true, wait := { kind := .channel, endIdx := 4 } }
     let s := panel { im := { procs := [(0, { p with probe := some { found := [(0, 0, 0)], second := true } })]
                              ends := [(4, { outEnd .offered with oo := true })] } } []
     ∃ b, s.presenting = false ∧ (s.procAt 0 0).probe = some b ∧ b.second = true ∧ b.visit = [] ∧ b.found = [(0, 0, 0)]
      ∧ (s.procAt 0 0).gen = 0 ∧ (s.procAt 0 0).wait.kind = .channel ∧ (s.procAt 0 0).dlT = true
      ∧ (s.tile 0).replay = none ∧ (s.tile 0).held < 16 ∧ (s.tile 0).fqwait = [])
    ∧ (let p : Proc := { st := .blocked, wait := { kind := .select, endMask := 16, guardMask := 16, sReg := 5 } }
       let s := panel { im := { procs := [(0, { p with probe := some { found := [(0, 0, 0)], second := true } })]
                                ends := [(4, { outEnd .offered with oo := true })] } } []
       ∃ b, (s.procAt 0 0).probe = some b ∧ b.found = [(0, 0, 0)] ∧ (s.procAt 0 0).wait.kind = .select
      ∧ (s.procAt 0 0).wait.rep = none ∧ (s.procAt 0 0).pendFault = [] ∧ (s.procAt 0 0).wait.sReg ≠ 0) :=
  ⟨⟨_, rfl, rfl, rfl, rfl, rfl, by decide +kernel, by decide +kernel, by decide +kernel, by decide +kernel, by decide +kernel,
      by decide +kernel⟩,
    ⟨_, rfl, rfl, by decide +kernel, by decide +kernel, by decide +kernel, by decide +kernel⟩⟩

/-! Events of a tile. -/

/-- The panel with one vtile, and the operands of an event. -/
def atTile (v : VTile) (a : EvArgs) : State := { panel v [] with arg := a }

theorem witness_TranslationEvents_walk :
    (let s := atTile { walks := [3], pt := [(3, 7)] } { j := 3 }
     s.arg.k = 0 ∧ s.arg.ok = false ∧ s.presenting = false ∧ ((s.tile 0).walks.take 4).contains s.arg.j = true ∧ s.replaying 0 = false ∧ (s.tile 0).discard.contains s.arg.j = false
      ∧ (s.tile 0).tlb.length < 256 ∧ entryM (Sparse.get (s.tile 0).pt s.arg.j) = true
      ∧ entryR (Sparse.get (s.tile 0).pt s.arg.j) = true)
    ∧ (let s := atTile { walks := [3], discard := [3], pt := [(3, 7)] } { j := 3 }
       ((s.tile 0).walks.take 4).contains s.arg.j = true ∧ s.replaying 0 = false
      ∧ (s.tile 0).discard.contains s.arg.j = true) := by decide +kernel

theorem witness_TranslationEvents_entry :
    (let s := atTile { monWait := .entry 15359 7 } {}
     (s.tile 0).monWait = .entry 15359 7 ∧ (15359#14).toNat < 15360 ∧ s.refusesEntry 0 7 = false)
    ∧ (let s := atTile { monWait := .entry 15360 7 } {}
       (s.tile 0).monWait = .entry 15360 7 ∧ 15360 ≤ (15360#14).toNat)
    ∧ (let s := atTile { monWait := .entry 0 0x17 } {}
       (s.tile 0).monWait = .entry 0 0x17 ∧ s.refusesEntry 0 0x17 = true)
    ∧ (let s := atTile { monWait := .tlbinv none } {}
       (s.tile 0).monWait = .tlbinv none ∧ (s.tile 0).walksBack none = true)
    ∧ (let s := ({ atTile { monWait := .tlbinv (some 3) } {} with ten := { twbusy := some (0, 3) } } : State)
       (s.tile 0).monWait = .tlbinv (some 3) ∧ (s.tile 0).walksBack (some 3) = true ∧ s.ten.twbusy = some (0, 3)
      ∧ s.ten.twwaiting = []) := by decide +kernel

theorem witness_TranslationEvents_window :
    (let s := atTile {} { j := 15359, v := 7 }
     s.windowVTile = some 0 ∧ s.arg.j < 15360 ∧ s.up.reset = false ∧ s.up.d3 = false ∧ s.up.hostLink = true ∧ s.up.phase ≠ 1
      ∧ ¬Rules.takes (Sparse.get (s.tile 0).pt s.arg.j) 7
      ∧ 7 = Rules.written (Sparse.get (s.tile 0).pt s.arg.j) s.arg.ok s.arg.e s.arg.v ∧ s.ten.twbusy = none
      ∧ s.refusesEntry 0 7 = false)
    ∧ (let s := atTile {} { j := 0, v := 0x17 }
       s.windowVTile = some 0 ∧ s.arg.j < 15360
      ∧ 0x17 = Rules.written (Sparse.get (s.tile 0).pt s.arg.j) s.arg.ok s.arg.e s.arg.v ∧ s.ten.twbusy = none
      ∧ s.refusesEntry 0 0x17 = true)
    ∧ (let s := ({ atTile {} {} with ten := { twbusy := some (0, 1) } } : State)
       s.windowVTile = some 0 ∧ s.arg.j < 15360 ∧ s.ten.twbusy.isSome = true)
    ∧ (let s := atTile { pt := [(3, 7)] } { j := 3 }
       0 = Rules.written (Sparse.get (s.tile 0).pt s.arg.j) s.arg.ok s.arg.e s.arg.v ∧ s.refusesEntry 0 0 = false
      ∧ Rules.takes (Sparse.get (s.tile 0).pt s.arg.j) 0)
    ∧ (let s := atTile { pt := [(3, 7)] } { j := 3, ok := true, e := 1, v := 1 }
       s.windowVTile = some 0 ∧ Rules.written (Sparse.get (s.tile 0).pt s.arg.j) s.arg.ok s.arg.e s.arg.v = 0x100000007
      ∧ s.refusesEntry 0 0x100000007 = false) := by
  simp only [Rules.takes]
  decide +kernel

/-- A record that waits for the queue. -/
def rec0 : FaultRec := { code := codePage }

theorem witness_MonitorAndHostFaults_events :
    (let s := atTile { releases := [0], im := { procs := [(0, { st := .parked, pwait := some 3 })] } } {}
     ∃ q r, (s.tile 0).releases = q :: r ∧ (s.procAt 0 q.toNat).st = .parked
      ∧ (s.procAt 0 q.toNat).pwait.isSome = true ∧ (s.tile 0).freeze = none)
    ∧ (let s := atTile { fqwait := [rec0], fqtl := 15 } {}
       (s.tile 0).fqwait = rec0 :: [] ∧ (s.tile 0).held < 16)
    ∧ (let s := atTile { monWait := .idle, reqReg := true } {}
       s.active 0 = true ∧ (s.tile 0).monWait = .idle ∧ (s.tile 0).monRunnable = true)
    ∧ (let s := atTile { monWait := .idle } { ok := true }
       s.active 0 = true ∧ (s.tile 0).monWait = .idle ∧ s.arg.ok = true ∧ s.up.reset = false ∧ s.up.hostLink = true)
    ∧ (let s := ({ atTile { recTimes := [0], fqtl := 1 } {} with time := 10000000 } : State)
       (s.tile 0).held ≠ 0 ∧ (s.tile 0).recTimes[(s.tile 0).recTimes.length - (s.tile 0).held]? = some 0 ∧ (s.tile 0).hfqFull = false ∧ (s.tile 0).emergency = false
      ∧ 10000000 ≤ s.time.toNat - (0 : Word).toNat) :=
  ⟨⟨_, _, rfl, by decide +kernel, by decide +kernel, rfl⟩, by decide +kernel, by decide +kernel, by decide +kernel,
    by decide +kernel⟩

/-- The monitor of a tile waits to append, the ring of slot 0 of 2 entries with the tail at n. -/
def appends (n : BitVec 32) : State :=
  { atTile { monWait := .hfq 0x1BFC00 0 } {} with
    queues := [(0, { fqsize0 := 1, fqtl0 := n })] }

theorem witness_MonitorAndHostFaults_append :
    (let s := appends 1
     (s.tile 0).monWait = .hfq 0x1BFC00 0
      ∧ (Sparse.get s.parts (s.tile 0).part).slotOf ((s.tile 0).hfqTenant 0x1BFC00) = some 0 ∧ s.up.hostLink = true
      ∧ (((Sparse.get s.queues (s.tile 0).part).ring 0).2.2.1
          - ((Sparse.get s.queues (s.tile 0).part).ring 0).2.2.2).toNat
          < 2 ^ ((Sparse.get s.queues (s.tile 0).part).ring 0).2.1)
    ∧ (let s := appends 2
       (s.tile 0).monWait = .hfq 0x1BFC00 0
      ∧ (Sparse.get s.parts (s.tile 0).part).slotOf ((s.tile 0).hfqTenant 0x1BFC00) = some 0 ∧ s.up.hostLink = true
      ∧ 2 ^ ((Sparse.get s.queues (s.tile 0).part).ring 0).2.1
          ≤ (((Sparse.get s.queues (s.tile 0).part).ring 0).2.2.1
            - ((Sparse.get s.queues (s.tile 0).part).ring 0).2.2.2).toNat ∧ (s.tile 0).hfqFull = false) := by
  decide +kernel

theorem witness_MonitorAndHostFaults_answers :
    (let s := ({ atTile { forwarded := [(0, rec0)] } {} with parts := [] } : State)
     ∃ f, 0 = vtKey s.arg.q s.arg.t.toNat s.arg.vt.toNat
      ∧ (s.tile 0).forwarded.find? (fun f => decide (f.1 = s.arg.seq)) = some f ∧ s.up.reset = false ∧ s.up.hostLink = true
      ∧ s.active 0 = false)
    ∧ (let s := atTile { forwarded := [(0, rec0)], im := { procs := [(0, { st := .parked })] } } {}
       ∃ f, 0 = vtKey s.arg.q s.arg.t.toNat s.arg.vt.toNat
      ∧ (s.tile 0).forwarded.find? (fun f => decide (f.1 = s.arg.seq)) = some f ∧ s.active 0 = true
      ∧ (s.tile 0).replay = none ∧ (s.tile 0).answers = [] ∧ (s.tile 0).forwarded = [f] ∧ (s.tile 0).freeze = none
      ∧ (s.procAt 0 f.2.slot.toNat).st = .parked ∧ (s.procAt 0 f.2.slot.toNat).pwait = none ∧ f.2.src = 0) :=
  ⟨⟨_, rfl, rfl, rfl, rfl, by decide +kernel⟩,
    ⟨_, rfl, rfl, by decide +kernel, rfl, rfl, rfl, rfl, by decide +kernel, by decide +kernel, by decide +kernel⟩⟩

theorem witness_EnginesAtWork_steps :
    (let s := atTile { im := { mats := [{}] } } {}
     s.engineRuns 0 = true ∧ s.arg.c = 0 ∧ (s.tile 0).im.mats = {} :: [] ∧ ({} : MatCmd).early = [] ∧ ({} : MatCmd).wrote = [])
    ∧ (let s := atTile { im := { copies := [(0, { kind := .cpy, src := 0x1000, dst := 0x2000, lend := 128, total := 2 })] } } {}
       let c := s.copyAt 0 0
       s.engineRuns 0 = true ∧ c.prog.toNat = 0 ∧ c.early = [] ∧ c.wrote = [] ∧ s.wellWaits 0 (addrPlus c.dst (64 * 0)) = false ∧ c.kind = .cpy ∧ c.st = 0 ∧ c.held = false ∧ (s.tile 0).isHead c = true
      ∧ 0 + 1 < c.total ∧ s.checkPages 0 (addrPlus c.dst (64 * 0)) (min 64 (c.lend.toNat - 64 * 0)) false true = none
      ∧ s.checkPages 0 (addrPlus c.src (64 * 0)) (min 64 (c.lend.toNat - 64 * 0)) true false = none)
    ∧ (let s := atTile { im := { procs := [(0, { st := .ready, pumps := [(0, {
          bound := true, desc := 0x300000040, cap := storeCap 0x1000 })] })] } } {}
       let u := (s.procAt 0 0).pump 0
       s.engineRuns 0 = true ∧ u.bound = true ∧ u.out = false ∧ u.early = [] ∧ (s.tile 0).freeze = none ∧ u.nextFetch = some 0
      ∧ s.checkPages 0 (u.place 0) 64 true false = none) := by decide +kernel

/-- One command of accumulator 1 at the head of the matrix queue of a tile. -/
def commanded (h : AccShape) (op : MatOp) : State := atTile { im := { mats := [{ acc := 1, shape := h, op := op }] } } {}

theorem witness_EnginesAtWork_matrix :
    (∀ h op, (commanded h op).engineRuns 0 = true ∧ (commanded h op).arg.c = 0)
    ∧ (∃ r, ((commanded .f32 (.load 0x1000 128)).tile 0).im.mats = { acc := 1, op := .load 0x1000 128 } :: r)
    ∧ ((mmaType 1).shape = .f32 ∧ (mmaType 6).shape = .f32 ∧ (mmaType 6).mx = true ∧ (mmaType 11).shape = .s32
      ∧ (mmaType 16).shape = .f64)
    ∧ (mstAccepts .f32 10 = true ∧ mstRow .f32 10 ≤ 128 ∧ 0x1000 + mstSpan .f32 10 128 ≤ monLo)
    ∧ (mstAccepts .s32 2 = true ∧ mstRow .s32 2 ≤ 128 ∧ 0x1000 + mstSpan .s32 2 128 ≤ monLo)
    ∧ (mstAccepts .f64 11 = true ∧ mstRow .f64 11 ≤ 128 ∧ 0x1000 + mstSpan .f64 11 128 ≤ monLo)
    ∧ (mstAccepts .f32 16 = true ∧ mstRow .f32 16 ≤ 64 ∧ 0x1000 + mstSpan .f32 16 64 ≤ monLo) := by
  exact ⟨fun h op => ⟨rfl, rfl⟩, ⟨_, rfl⟩, by decide +kernel, by decide +kernel, by decide +kernel, by decide +kernel,
    by decide +kernel⟩

theorem witness_EnginesAtWork_outputPump :
    let s := atTile { im := { procs := [(0, { st := .ready, pumps := [(1, {
          bound := true, out := true, desc := 0x300000040, cap := storeCap 0x1000, pend := [(2, 5)] })] })] } } { p := 1 }
    let u := (s.procAt 0 0).pump 1
    (s.engineRuns 0 = true ∧ u.bound = true ∧ u.out = true ∧ u.stopped = false ∧ (s.tile 0).quiescent = false
      ∧ u.pend = [(2, 5)] ∧ u.wrote = [] ∧ s.wellWaits 0 (u.place 2) = false ∧ s.checkPages 0 (u.place 2) 64 false true = none) ∧ ∀ j, (s.procAt 0 j).pendFault = [] :=
  ⟨by decide +kernel, fun j => match j with | 0 => rfl | _ + 1 => rfl⟩

/-- A tile with one external copy in entry 0, port 63 live. -/
def copyTile (c : Copy) (t : Word) (a : EvArgs) : State :=
  { atTile { im := { copies := [(0, c)], procs := [(0, { st := .ready })] } } a with
    time := t
    links := [(14592, { rate := 100 })] }
/-- An external copy of two elements, the first sent at time 0. -/
def outCopy : Copy := { kind := .xout, port := 63, total := 2, src := 0x1000, lend := 128, sent := [{ bytes := List.replicate 64 7 }] }
/-- What outCopy sent. -/
def sent0 : Sent := { bytes := List.replicate 64 7 }

theorem witness_EnginesAtWork_external :
    (let c : Copy := { outCopy with sent := [] }
     let s := copyTile c 0 {}
     s.copyAt 0 0 = c ∧ s.arg.c = 0 ∧ c.kind = .xout ∧ c.st = 0 ∧ c.held = false ∧ s.engineRuns 0 = true ∧ c.nextSend = some 0
      ∧ c.kept = [] ∧ c.early = [] ∧ s.checkPages 0 (c.localAt 0) 64 true false = none)
    ∧ (let s := copyTile outCopy 0 {}
     outCopy.sent.find? (fun y => y.elem == 0) = some sent0 ∧ sent0.bytes.length = 64
      ∧ s.copyAt 0 0 = outCopy ∧ s.replaying 0 = false ∧ s.presenting = false ∧ (s.tile 0).pathClear 0 outCopy = true
      ∧ s.copyLive 0 outCopy = true ∧ outCopy.firstSent = some 0)
    ∧ (let s := atTile { im := { copies := [(0, outCopy)] } } {}
       s.copyAt 0 0 = outCopy ∧ outCopy.isExternal = true ∧ s.copyLive 0 outCopy = false)
    ∧ (let c : Copy := { outCopy with kind := .xin }
       let s := copyTile c 0 {}
       s.copyAt 0 0 = c ∧ s.replaying 0 = false ∧ c.st = 0 ∧ c.early = [] ∧ c.wrote = []
      ∧ s.wellWaits 0 (c.localAt 0) = false ∧ s.copyLive 0 c = true
      ∧ c.sent.any (fun x => x.elem == 0) = true ∧ c.prog.toNat + c.acked.length + 1 < c.total
      ∧ s.checkPages 0 (c.localAt 0) 64 false true = none)
    ∧ (let s := copyTile outCopy 50000000 {}
       outCopy.isExternal = true ∧ outCopy.st = 0 ∧ outCopy.held = false ∧ outCopy.wrote = [] ∧ s.engineRuns 0 = true ∧ (s.tile 0).wdl ≠ 0
      ∧ outCopy.sent.any (fun x => decide ((s.tile 0).wdl.toNat ≤ s.time.toNat - x.when_.toNat)) = true
      ∧ (s.procAt 0 outCopy.owner.toNat).st = .ready)
    ∧ (let c : Copy := { outCopy with st := 2 }
       let s := copyTile c 10000 {}
       s.copyAt 0 0 = c ∧ c.isExternal = true ∧ c.st = 2 ∧ 10000 ≤ s.time.toNat - c.since.toNat)
    ∧ (let c : Copy := { outCopy with held := true }
       let s := copyTile c 10000 {}
       s.copyAt 0 0 = c ∧ c.isExternal = true ∧ c.st ≠ 2 ∧ c.held = true ∧ c.kept = [] ∧ c.wrote = [] ∧ 10000 ≤ s.time.toNat - c.since.toNat)
    ∧ (let s := copyTile outCopy 0 { c := 1 }
       s.arg.c = 1 ∧ outCopy.isExternal = true ∧ s.wellWaits 0 (outCopy.localAt s.arg.j) = false ∧ outCopy.sent.any (fun x => x.1 == s.arg.j) = true ∧ outCopy.wrote = []) := by decide +kernel

theorem witness_FreezesAndCheckpoints_freezes :
    (let s := atTile { requests := [.emergency] } {}
     s.presenting = false ∧ Rules.acceptsFreeze s 0 ∧ firstRequest (s.tile 0).requests = some .emergency)
    ∧ (let s := atTile { freeze := some {} } {}
       ∃ f, (s.tile 0).freeze = some f ∧ f.stage = .draining ∧ f.kind = .emergency ∧ s.active 0 = true ∧ s.drained 0 = true)
    ∧ (let s := atTile { freeze := some { stage := .quiescent }, im := { procs := [
          (0, { st := .frozen, prior := .ready }), (1, { st := .frozen, prior := .ready, bySlotctl := true })] } } {}
       ∃ f, (s.tile 0).freeze = some f ∧ f.stage = .quiescent ∧ f.kind = .emergency ∧ (s.tile 0).emergency = false
      ∧ (s.region (regionOf (s.tile 0).ptile)).emergency = false ∧ (s.tile 0).requests = [] ∧ (∀ m ∈ s.msgs, m.held = false)
      ∧ ∀ q, q < 8 → (s.procAt 0 q).st ≠ .blocked ∧ ((s.procAt 0 q).st = .frozen →
        (s.procAt 0 q).prior = .ready ∧ (s.procAt 0 q).efp = false ∧ (s.procAt 0 q).preempt = false)) := by
  refine ⟨⟨rfl, ⟨by decide +kernel, rfl, rfl, rfl, rfl, rfl⟩, rfl⟩, ⟨_, rfl, rfl, rfl, by decide +kernel, by decide +kernel⟩,
    ⟨_, rfl, rfl, rfl, rfl, by decide +kernel, rfl, by decide +kernel, ?_⟩⟩
  decide +kernel

/-- A checkpoint taken at time 0. -/
def ck0 : Ckpt := {}

theorem witness_FreezesAndCheckpoints_checkpoints :
    (let s := atTile { ckDue := true } {}
     s.mayCheckpoint 0 = true ∧ (s.tile 0).writing = false ∧ (s.tile 0).ckDue = true)
    ∧ (let s := ({ atTile { ck := some ck0 } {} with time := 10000000 } : State)
       s.mayCheckpoint 0 = true ∧ (s.tile 0).ck = some ck0
      ∧ min (max s.rel.ckint.toNat 1000000) 10000000 ≤ s.time.toNat - ck0.time.toNat)
    ∧ (let s := ({ atTile { ck := some ck0, ckPending := true } {} with time := 50000 } : State)
       s.mayCheckpoint 0 = true ∧ (s.tile 0).writing = false ∧ (s.tile 0).ckPending = true ∧ (s.tile 0).ck = some ck0
      ∧ s.rel.ckmin.toNat ≤ s.time.toNat - ck0.time.toNat)
    ∧ (let s := atTile { staged := some ck0 } {}
       (s.tile 0).staged = some ck0 ∧ (s.tile 0).marked = [] ∧ (s.tile 0).needsCommit = false)
    ∧ (let s := atTile { staged := some ck0, starved := true } {}
       (s.tile 0).staged = some ck0 ∧ (s.tile 0).marked = [] ∧ (s.tile 0).needsCommit = true ∧ ∀ m ∈ s.msgs, m.held = false)
    ∧ (let s := atTile { logBytes := 26 * 2 ^ 20 + 1 } {}
       s.arg.c = 0 ∧ (s.tile 0).replay = none ∧ (s.tile 0).low = false ∧ (s.tile 0).freeze = none
      ∧ 26 * 2 ^ 20 < (s.tile 0).logBytes + 2 ^ 20 ∧ 26 * 2 ^ 20 < (s.tile 0).logBytes + 68 * 1024)
    ∧ (let s := atTile { snaps := List.replicate 449 (0, []) } {}
       512 < (s.tile 0).snaps.length + (s.tile 0).stagedSnaps.length + 64)
    ∧ (let s := atTile { ck := some ck0 } {}
       s.active 0 = true ∧ (s.tile 0).lost = false ∧ (s.tile 0).failed = false ∧ (s.tile 0).ck = some ck0
      ∧ (s.tile 0).freeze = none ∧ (s.tile 0).log = [] ∧ (s.tile 0).replay = none)
    ∧ (let s := atTile { ck := some ck0, pt := [(3, 7)], snaps := [(entryFrame 7, [])] } { c := 9, j := 3 }
       s.arg.c = 9 ∧ s.snapshotted 0 s.arg.j = true)
    ∧ (atTile {} { c := 9 }).arg.c = 9 ∧ 1 ≤ (atTile {} { c := 8 }).arg.c ∧ (atTile {} { c := 8 }).arg.c ≤ 8 := by
  decide +kernel

theorem witness_FreezesAndCheckpoints_replay :
    let s := atTile { replay := some [{ event := some (.replayEnd, {}) }] } {}
    ∃ e, (s.tile 0).replay = some [e] ∧ e.isEnd = true ∧ (s.tile 0).replayOver = true ∧ ∀ m ∈ s.msgs, m.held = false :=
  ⟨_, rfl, by decide +kernel, by decide +kernel, by decide +kernel⟩

/-! Events of the panel. -/

/-- A panel after bring-up with the operands of an event. -/
def up (a : EvArgs) : State := { panel {} [] with
  up := { phase := 7, reset := false, hostLink := true }
  arg := a }
/-- Region 0 at a stage of its power. -/
def powered (p : Power) : State := { up {} with regions := [(0, { power := p })] }

theorem witness_PowerAndCoolant :
    (State.reset.health.supplyOut = false ∧ (powered .on).region 0 = { power := .on } ∧ (0 : Nat) < 48)
    ∧ (let s := ({ powered .on with health := { supplyOut := true, hstate := 0 }, time := 100000000 } : State)
       s.health.supplyOut = true ∧ 100000000 ≤ s.health.absentNs + (s.time.toNat - s.health.supplySince.toNat) ∧ s.health.hstate ≠ 3)
    ∧ (let s := ({ powered .on with health := { supplyOut := true, hstate := 3 }, time := 100000000 } : State)
       s.health.supplyOut = true ∧ 100000000 ≤ s.health.absentNs + (s.time.toNat - s.health.supplySince.toNat) ∧ s.health.hstate = 3)
    ∧ Rules.powered ((powered .ramping).region 0)
    ∧ (let s := ({ powered .on with regions := [(0, { power := .on }), (1, { power := .ramping })] } : State)
       (s.region 0).power = .on ∧ 1 ∈ neighbours 0 ∧ (s.region 1).power = .ramping)
    ∧ State.reset.health.flowLow = false
    ∧ (let s := ({ powered .on with health := { flowLow := true }, time := 10000000000 } : State)
       s.health.flowLow = true ∧ 10000000000 ≤ s.time.toNat - s.health.flowSince.toNat)
    ∧ ((powered .ramping).region 0).power = .ramping
    ∧ ((powered .held).region 0).power = .held
    ∧ (∀ n ∈ neighbours 0, ((powered .held).region n).emPower = false ∧ ((powered .held).region n).emSupply = false)
    ∧ (let s := ({ powered .held with regions := [(0, { power := .held, waited := 10000000 })] } : State)
       (s.region 0).power = .held ∧ 10000000 ≤ (s.region 0).waited + (s.time.toNat - (s.region 0).heldSince.toNat))
    ∧ (let s := ({ powered .noWait with up := { phase := 7 } } : State)
       (s.region 0).power = .noWait ∧ s.up.phase ≠ 3) := by decide +kernel

/-- A retirement of the tile 0. -/
def retire0 : Retirement := { ptile := 0 }
/-- The panel with the tile 1 a spare, and records of reliability. -/
def spared (r : Reliability) (a : EvArgs) : State := { up a with
  ptiles := [(1, { role := .spare })]
  rel := r }

theorem witness_RotationAndLosses_starts :
    (let s := spared { retiring := [retire0] } {}
     s.step 0 0 = none ∧ s.up.phase = 7 ∧ s.rel.rotStop = false ∧ s.nextRetirement 0 0 = some retire0
      ∧ s.pickSpare 0 0 true = some 1)
    ∧ (let s := ({ spared {} {} with time := 2000000000 } : State)
       s.step 0 0 = none ∧ s.up.phase = 7 ∧ s.rel.rotStop = false ∧ s.nextRetirement 0 0 = none ∧ s.stepDue 0 0 = true
      ∧ s.nextRoutine 0 0 = some 0 ∧ s.pickSpare 0 0 false = some 1) := by decide +kernel

theorem witness_RotationAndLosses_steps :
    (let s := spared { rotations := [(0, some { dest := 1 })] } {}
     ∃ x, s.step 0 0 = some x ∧ x.stage = .warm ∧ (s.ptile x.from_).failed = false ∧ s.activeOn x.from_ = some 0)
    ∧ (let s := spared { rotations := [(0, some { dest := 1, stage := .mapping, routers := [2, 3], unacked := [4, 5] })] } { p := 4 }
       ∃ x, s.step 0 0 = some x ∧ x.stage = .mapping ∧ x.routers.Nodup ∧ Rules.later x.routers 3
      ∧ x.routers.contains s.arg.p = false
      ∧ x.unacked.contains s.arg.p = true ∧ x.unacked.filter (fun i => i != s.arg.p) ≠ [])
    ∧ (let s := spared { rotations := [(0, some { dest := 1, stage := .mapping, routers := [2, 16] })] } {}
       ∃ x, s.step 0 0 = some x ∧ x.stage = .mapping ∧ x.routers.Nodup ∧ ∀ i, ¬Rules.later x.routers i) := by
  refine ⟨⟨_, rfl, rfl, by decide +kernel, by decide +kernel⟩,
    ⟨_, rfl, rfl, by decide, ⟨[2], [], 2, rfl, by decide, by decide⟩, rfl, rfl, by decide⟩, _, rfl, rfl, by decide, ?_⟩
  rintro i ⟨a, b, j, h, hj, hr⟩
  match a, h with
  | [], _ => exact absurd hj List.not_mem_nil
  | [x], h =>
    obtain ⟨rfl, rfl, -⟩ : x = 2 ∧ i = 16 ∧ b = [] := by simpa [eq_comm] using h
    obtain rfl : j = 2 := by simpa using hj
    exact absurd hr (by decide)
  | x :: y :: l, h => simp [List.append_eq_nil_iff] at h

/-- A screening of the tile 1, with the margin found and the state hash of the replay. -/
def screening (x : Screen) (r : ScreenResult) (m : BitVec 32) : State :=
  spared { screens := [{ x with ptile := 1 }] } { p := 1, screen := r, rate := m }

theorem witness_RotationAndLosses_ends :
    (let s := screening {} .bistFail 0
     ∃ x, s.rel.screens.find? (fun e => decide (e.ptile = 1)) = some x ∧ s.arg.screen = .bistFail)
    ∧ (let s := screening {} .replayed 30001
       s.arg.screen ≠ .bistFail ∧ (s.rel.mgnlim.toNat : Int) < s.arg.rate.toInt)
    ∧ (let s := screening { pages := List.replicate 512 (0, []) } .replayed 30000
       ∃ x, s.rel.screens.find? (fun e => decide (e.ptile = 1)) = some x ∧ s.arg.rate.toInt ≤ (s.rel.mgnlim.toNat : Int)
      ∧ s.screenFull x = true)
    ∧ (let s := screening {} .diverged 0
       ∃ x, s.rel.screens.find? (fun e => decide (e.ptile = 1)) = some x ∧ s.screenFull x = false ∧ s.arg.screen = .diverged)
    ∧ (let s := screening { hash := [1] } .replayed 0
       ∃ x, s.rel.screens.find? (fun e => decide (e.ptile = 1)) = some x ∧ s.screenFull x = false ∧ s.arg.bytes ≠ x.hash)
    ∧ (let s := screening {} .replayed 0
       ∃ x, s.rel.screens.find? (fun e => decide (e.ptile = 1)) = some x ∧ s.screenFull x = false
      ∧ s.arg.screen ≠ .diverged ∧ s.arg.bytes = x.hash) :=
  ⟨⟨_, rfl, rfl⟩, by decide, ⟨_, rfl, by decide, by decide +kernel⟩, ⟨_, rfl, by decide +kernel, rfl⟩,
    ⟨_, rfl, by decide +kernel, by decide⟩, ⟨_, rfl, by decide +kernel, by decide, rfl⟩⟩

theorem witness_RotationAndLosses_lost :
    (let s := ({ up {} with ptiles := [(0, { failed := true })] } : State)
     s.hasTile 0 = true ∧ (s.ptile (s.tile 0).ptile).failed = true ∧ s.rotating (s.tile 0).ptile = false
      ∧ s.spares (regionOf (s.tile 0).ptile) 0 = [] ∧ s.spares (regionOf (s.tile 0).ptile) 1 = []
      ∧ s.screeningIn (regionOf (s.tile 0).ptile) = false ∧ (s.tile 0).lost = false)
    ∧ (up {}).stackLost 0 0 = false
    ∧ (let s := atTile { pt := [(3, 7)] } { j := 3 }
       entryM (Sparse.get (s.tile 0).pt 3) = true ∧ s.snapshotted 0 3 = false)
    ∧ (let s := ({ up {} with rel := { waiting := [{ ty := 4 }], rren := true }, time := 1000000 } : State)
       s.rel.waiting = { ty := 4 } :: [] ∧ 1000000 ≤ s.time.toNat - (0 : Word).toNat ∧ s.rel.rren = true)
    ∧ (let s := ({ up {} with rel := { waiting := [{}], rren := true } } : State)
       s.rel.waiting = {} :: [] ∧ ({} : Report).ty ≠ 4 ∧ s.rel.rren = true ∧ s.up.hostLink = true
      ∧ (s.rel.rrtl - s.rel.rrhd).toNat < 2 ^ s.rel.ringLog) := by decide +kernel

/-- A panel in a phase of bring-up. -/
def inPhase (p : BitVec 4) (a : EvArgs) : State := { up a with up := { phase := p, reset := false, hostLink := true } }

theorem witness_BringUpEvents :
    (State.reset.up.reset = true ∧ State.reset.health.supplyOut = false)
    ∧ ((inPhase 1 { v := 1 }).up.reset = false ∧ (inPhase 1 { v := 1 }).up.hostLink = true ∧ (inPhase 1 { v := 1 }).up.d3 = false ∧ (inPhase 1 { v := 1 }).arg.v.getLsbD 0 = true
      ∧ (inPhase 1 { v := 1 }).up.phase = 1 ∧ (inPhase 15 { v := 1 }).up.phase = 15 ∧ (inPhase 7 { v := 1 }).up.phase = 7)
    ∧ (let s := ({ inPhase 2 {} with up := { phase := 2, reset := false } } : State)
       s.up.phase = 2 ∧ (s.arg.ok || !s.up.hostLink) = true)
    ∧ ((inPhase 2 { ok := true }).up.phase = 2 ∧ (true = ((inPhase 2 { ok := true }).arg.ok || !(inPhase 2 {}).up.hostLink))
      ∧ bundleError (Memory.read (inPhase 2 { ok := true }).hostMem 0 0) (inPhase 2 { ok := true }).arg.ok ≠ 0
      ∧ ∀ n ∈ neighbours (regionAt 0), ((inPhase 2 {}).region n).emPower = false ∧ ((inPhase 2 {}).region n).emSupply = false)
    ∧ (inPhase 4 {}).up.phase = 4 ∧ (inPhase 5 {}).up.phase = 5 ∧ (inPhase 6 {}).up.phase = 6
    ∧ ((inPhase 2 {}).up.tset = false ∧ (inPhase 2 {}).barOpen = true ∧ (inPhase 2 {}).up.phase ≠ 7)
    ∧ (let s := ({ up {} with up := { phase := 7, tsrc := 1, reset := false, hostLink := true }, time := 10000000 } : State)
       s.up.phase = 7 ∧ s.up.tsrc = 1 ∧ s.up.reset = false ∧ s.up.hostLink = true ∧ s.up.ptmint.toNat ≤ s.time.toNat - s.up.ptmTime.toNat)
    ∧ (let s := ({ up {} with up := { phase := 7, tsrc := 2 }, links := [(14544, { rate := 100 })] } : State)
       s.up.phase = 7 ∧ s.up.tsrc = 2 ∧ s.linkLive 14544 = true)
    ∧ (let s := up { v := 0x130 }
       s.arg.v.getLsbD 8 = true ∧ 47 < (s.arg.v.setWidth 6 : BitVec 6).toNat)
    ∧ (let s := up { v := 0x12F }
       s.barOpen = true ∧ s.arg.v.getLsbD 8 = true ∧ (s.arg.v.setWidth 6 : BitVec 6).toNat ≤ 47 ∧ s.up.rgphase ≠ 1 ∧ s.up.mrphase ≠ 1)
    ∧ ({ up {} with up := { mrphase := 1 } } : State).up.mrphase = 1 := by decide +kernel

/-- The bytes of a bundle of no components, at 0 of host memory: magic, version, and the length of its body. -/
def bundleBytes : Memory :=
  [(0, 0x42), (1, 0x4C), (2, 0x44), (3, 0x4E), (4, 1)] ++ [8, 16, 24, 32].map (fun a => (a, 0x40)) ++ [(40, 0x40)]

/-- A bundle passes every check but that of its signature, which is an implementation's own (log entry 10). -/
theorem witness_BringUpEvents_bundle :
    let l := Memory.read bundleBytes 0 7920
    bundleHeader l = true ∧ bundleFits l = true
      ∧ (Config.bundleSignatureHolds l = true → bundleError l false = 0) := by
  have h : bundleHeader (Memory.read bundleBytes 0 7920) = true := by decide +kernel
  have f : bundleFits (Memory.read bundleBytes 0 7920) = true := by decide +kernel
  exact ⟨h, f, fun hs => by simp only [bundleError, h, f, hs]; rfl⟩

/-! Launch queues. -/

/-- The first 16 bytes of a command, its words a0 and a1, and its rest. -/
def entryBytes (op a0 a1 : Nat) : List Byte :=
  toBytes 8 op ++ toBytes 8 a0 ++ toBytes 8 a1 ++ List.replicate 40 0
/-- The header of a network image of one vtile and the constant template, 1,984 bytes in all, with its CRC. -/
def imageBytes : Memory :=
  [(0, 0x57), (1, 0x52), (2, 0x50), (3, 0x4C), (4, 1), (8, 1), (28, 0xC0), (29, 7), (32, 64), (36, 64), (40, 64)]
    ++ [44, 48, 52, 56].flatMap (fun a => [(a, 0xC0), (a + 1, 7)]) ++ [(60, 0xB4), (61, 0xCD), (62, 0xE3), (63, 0xEF)]
/-- Queue 0 with one command fetched. -/
def queued (e : List Byte) (b : QBlock) : State := { up {} with
  queues := [(0, { b with
    en := true
    fetched := [e] })]
  hostMem := imageBytes }
/-- The command at the head of queue 0. -/
def command (op tenant n : Nat) : Command := { idx := n, op := op, tenant := tenant }
/-- Queue 0 once its command has begun. -/
def begun (s : State) (c : Command) : State :=
  { s with queues := Sparse.set s.queues 0 { Sparse.get s.queues 0 with
    fetched := (Sparse.get s.queues 0).fetched.drop 1
    tags := (Sparse.get s.queues 0).tags ++ [(c.tag, false)]
    begun := (Sparse.get s.queues 0).begun ++ [c] } }

/-- One bit of CRC-32C on a number. -/
def crcStep (c : Nat) : Nat := if c % 2 = 1 then c / 2 ^^^ 0x82F63B78 else c / 2
/-- n bytes of zeros on top of a running CRC, as numbers. -/
def crcZeros : Nat → Nat → Nat
  | 0, c => c
  | n + 1, 0 => crcZeros n 0
  | n + 1, c + 1 =>
    crcZeros n (crcStep (crcStep (crcStep (crcStep (crcStep (crcStep (crcStep (crcStep (c + 1)))))))))

theorem crcStep_toNat (c : BitVec 32) : (crcBit c).toNat = crcStep c.toNat := by
  have h : c.getLsbD 0 = decide (c.toNat % 2 = 1) := by simp [BitVec.getLsbD, Nat.testBit_zero]
  unfold crcBit crcStep
  rw [h]
  by_cases g : c.toNat % 2 = 1 <;> simp [g, Nat.shiftRight_eq_div_pow]

theorem crcZeros_toNat (n : Nat) (c : BitVec 32) :
    ((List.replicate n (0 : Byte)).foldl crcByte c).toNat = crcZeros n c.toNat := by
  induction n generalizing c with
  | zero => rfl
  | succ n ih =>
    have b : (crcByte c 0).toNat = crcStep (crcStep (crcStep (crcStep (crcStep (crcStep (crcStep (crcStep c.toNat))))))) := by
      simp [crcByte, crcStep_toNat]
    rw [List.replicate_succ, List.foldl_cons, ih, b]
    cases h : c.toNat <;> rfl

/-- The image's magic, version and CRC hold. -/
theorem image_holds : headerHolds (Memory.read imageBytes 0 1984) = true := by
  have e : ((Memory.read imageBytes 0 1984).take 0x3C ++ List.replicate 4 0 ++ (Memory.read imageBytes 0 1984).drop 0x40).take
      (headerOf (Memory.read imageBytes 0 1984)).imglen
      = (Memory.read imageBytes 0 60 ++ List.replicate 4 0) ++ List.replicate 1920 0 := by
    have n : (headerOf (Memory.read imageBytes 0 1984)).imglen = 1984 := by decide +kernel
    have z : Memory.read imageBytes (0 + 64) 1920 = List.replicate 1920 0 :=
      Memory.read_above _ _ _ (by decide +kernel)
    have w : (Memory.read imageBytes 0 64).take 60 = Memory.read imageBytes 0 60 := by decide +kernel
    have t : (Memory.read imageBytes 0 64 ++ List.replicate 1920 0).take 60 = Memory.read imageBytes 0 60 := by
      rw [List.take_append_of_le_length (by rw [Memory.length_read]; omega), w]
    rw [n, show (1984 : Nat) = 64 + 1920 from rfl, Memory.read_append, z, t, List.drop_left' (Memory.length_read _ _ _)]
    apply List.take_of_length_le
    rw [List.length_append, List.length_append, Memory.length_read, List.length_replicate, List.length_replicate]
    first | done | decide
  have h : (Memory.read imageBytes 0 60 ++ List.replicate 4 0).foldl crcByte (BitVec.allOnes 32) = 0x8A443060 := by decide +kernel
  have z : crcZeros 1920 (0x8A443060 : BitVec 32).toNat = 0x101C324B := by decide +kernel
  have c : crc32c (((Memory.read imageBytes 0 1984).take 0x3C ++ List.replicate 4 0
      ++ (Memory.read imageBytes 0 1984).drop 0x40).take (headerOf (Memory.read imageBytes 0 1984)).imglen)
      = BitVec.ofNat 32 (leField (Memory.read imageBytes 0 1984) 0x3C 4) := by
    have w : (List.replicate 1920 (0 : Byte)).foldl crcByte 0x8A443060 = 0x101C324B :=
      BitVec.eq_of_toNat_eq ((crcZeros_toNat _ _).trans z)
    rw [e]
    simp only [crc32c, List.foldl_append, h, w]
    decide +kernel
  have m : leField (Memory.read imageBytes 0 1984) 0 4 = 0x4C505257 := by decide +kernel
  have v : leField (Memory.read imageBytes 0 1984) 4 2 = 1 := by decide +kernel
  simp only [headerHolds, c, m, v]
  rfl

/-- A LOAD of the image passes every check. -/
theorem witness_LaunchQueues_load :
    let s := queued (entryBytes 1 0 1984) {}
    let u := begun s (command 1 0 0)
    Rules.begins s 0 1 (entryBytes 1 0 1984) (command 1 0 0) u
      ∧ u.loadRefuses 0 0 (u.loadRead 0 (entryBytes 1 0 1984) s.arg.v.toNat) = 0 := by
  have r : (begun (queued (entryBytes 1 0 1984) {}) (command 1 0 0)).loadRead 0 (entryBytes 1 0 1984) 0
      = { image := Memory.read imageBytes 0 1984 } := by
    have a : 0 * 2 ^ 64 + cmdA (entryBytes 1 0 1984) 0 = 0 := by decide +kernel
    have n : cmdA (entryBytes 1 0 1984) 1 % 2 ^ 32 = 1984 := by decide +kernel
    have t : ((begun (queued (entryBytes 1 0 1984) {}) (command 1 0 0)).loadRead 0 (entryBytes 1 0 1984) 0).table = [] := by
      decide +kernel
    have f : ((begun (queued (entryBytes 1 0 1984) {}) (command 1 0 0)).loadRead 0 (entryBytes 1 0 1984) 0).failed = 0 := by
      decide +kernel
    have i : ((begun (queued (entryBytes 1 0 1984) {}) (command 1 0 0)).loadRead 0 (entryBytes 1 0 1984) 0).image
        = Memory.read imageBytes 0 1984 := by
      show Memory.read imageBytes (0 * 2 ^ 64 + cmdA (entryBytes 1 0 1984) 0) (cmdA (entryBytes 1 0 1984) 1 % 2 ^ 32) = _
      rw [a, n]
    cases h : (begun (queued (entryBytes 1 0 1984) {}) (command 1 0 0)).loadRead 0 (entryBytes 1 0 1984) 0
    simp_all
  have l : ((headerOf (Memory.read imageBytes 0 1984)).lengthsHold 1984
      && reservedZero (headerOf (Memory.read imageBytes 0 1984)) (Memory.read imageBytes 0 1984)
      && fieldsHold (headerOf (Memory.read imageBytes 0 1984)) (Memory.read imageBytes 0 1984)
      && decide ((headerOf (Memory.read imageBytes 0 1984)).nv ≤ 1)
      && placesHold (headerOf (Memory.read imageBytes 0 1984)) (Memory.read imageBytes 0 1984)) = true := by decide +kernel
  simp only [Bool.and_eq_true, decide_eq_true_eq] at l
  obtain ⟨⟨⟨⟨l1, l2⟩, l3⟩, l4⟩, l5⟩ := l
  refine ⟨?_, ?_⟩
  · unfold Rules.begins
    decide +kernel
  · show State.loadRefuses _ 0 0 (State.loadRead _ 0 _ 0) = 0
    rw [r]
    have i : (begun (queued (entryBytes 1 0 1984) {}) (command 1 0 0)).imageRefuses 1
        { image := Memory.read imageBytes 0 1984 } = 0 := by
      simp only [State.imageRefuses, image_holds, Sys2Proof.Machine.Memory.length_read, l1, l2, l3, l5, Nat.not_lt.mpr l4]
      decide +kernel
    rw [State.loadRefuses]
    rw [if_neg (by decide +kernel), if_neg (by decide +kernel), if_neg (by decide +kernel)]
    exact i

theorem witness_LaunchQueues_loadRefused :
    let s := queued (entryBytes 1 0 63) {}
    let u := begun s (command 1 0 0)
    Rules.begins s 0 1 (entryBytes 1 0 63) (command 1 0 0) u
      ∧ u.loadRefuses 0 0 (u.loadRead 0 (entryBytes 1 0 63) s.arg.v.toNat) ≠ 0 := by
  unfold Rules.begins
  decide +kernel

/-- A network of one vtile, loaded. -/
def net5 : Network := { netid := 5, resident := true, nv := 1 }

theorem witness_LaunchQueues_startStop :
    (let s := ({ queued (entryBytes 2 5 0) {} with nets := [(0, net5)] } : State)
     let u := begun s (command 2 0 0)
     let w := Sparse.get u.nets (netKey 0 0)
     Rules.begins s 0 2 (entryBytes 2 5 0) (command 2 0 0) u ∧ (Sparse.get u.parts 0).activeTenant = some 0
      ∧ w.resident = true ∧ w.started = false ∧ w.netid = BitVec.ofNat 64 (cmdA (entryBytes 2 5 0) 0)
      ∧ cmdA (entryBytes 2 5 0) 0 ≠ 0 ∧ w.queue = 0 ∧ w.receipt = false)
    ∧ (let s := queued (entryBytes 3 0 0) {}
       let u := begun s (command 3 0 0)
       Rules.begins s 0 3 (entryBytes 3 0 0) (command 3 0 0) u ∧ cmdA (entryBytes 3 0 0) 0 = 0
      ∧ (Sparse.get u.nets (netKey 0 0)).resident = false)
    ∧ (let s := queued (entryBytes 6 1 0) {}
       let u := begun s (command 6 0 0)
       Rules.begins s 0 6 (entryBytes 6 1 0) (command 6 0 0) u
      ∧ (Sparse.get u.queues 0).lastTag 0 (BitVec.ofNat 32 (cmdA (entryBytes 6 1 0) 0)) = none)
    ∧ (let s := queued (entryBytes 6 1 0) { tags := [(1, true)] }
       let u := begun s (command 6 0 1)
       Rules.begins s 0 6 (entryBytes 6 1 0) (command 6 0 1) u
      ∧ (Sparse.get u.queues 0).lastTag 1 (BitVec.ofNat 32 (cmdA (entryBytes 6 1 0) 0)) = some 0
      ∧ (Sparse.get u.queues 0).completed 0 = true) := by
  unfold Rules.begins
  decide +kernel

/-- A STOP of the network loaded and not started, and of one that runs with a process, its queue 0. -/
theorem witness_LaunchQueues_stops :
    (let s := ({ queued (entryBytes 3 0 0) {} with nets := [(0, net5)] } : State)
     let u := begun s (command 3 0 0)
     let w := Sparse.get u.nets (netKey 0 0)
     Rules.begins s 0 3 (entryBytes 3 0 0) (command 3 0 0) u ∧ cmdA (entryBytes 3 0 0) 0 = 0 ∧ w.resident = true
      ∧ w.queue = 0 ∧ w.started = false ∧ ∀ d ∈ (Sparse.get s.queues 0).begun, d.op ≠ 2 ∨ d.netid ≠ w.netid)
    ∧ (let s := ({ queued (entryBytes 3 0 0) {} with nets := [(0, { net5 with started := true })]
                                                     vts := [(0, { im := { procs := [(0, { st := .ready })] } })] } : State)
       let u := begun s (command 3 0 0)
       let w := Sparse.get u.nets (netKey 0 0)
       Rules.begins s 0 3 (entryBytes 3 0 0) (command 3 0 0) u ∧ cmdA (entryBytes 3 0 0) 0 = 0 ∧ w.resident = true
      ∧ w.queue = 0 ∧ w.started = true ∧ (0 : Nat) < w.nv ∧ (s.tile 0).lost = false ∧ (s.tile 0).replay = none) := by
  unfold Rules.begins
  decide +kernel

/-- The partition 0 holds the tenants 0, active, and 1. -/
def twoTenants (s : State) : State := { s with
  vts := [(0, { tick := 1 })]
  parts := [(0, { regions := 1, v0 := true, v1 := true, t1 := 1, dual := true, state := 1, tiles := [0] })] }

theorem witness_LaunchQueues_tenants :
    (let s := queued (entryBytes 4 0 0) {}
     let u := begun s (command 4 0 0)
     Rules.begins s 0 4 (entryBytes 4 0 0) (command 4 0 0) u ∧ (0 : Nat) < 16
      ∧ ((u.part 0).slotOf 0).isSome = true ∧ (u.part 0).activeTenant = some 0 ∧ s.healthState = s.health.hstate)
    ∧ (let s := twoTenants (queued (entryBytes 0x104 0 0) {})
       let u := begun s (command 4 1 0)
       Rules.begins s 0 4 (entryBytes 0x104 0 0) (command 4 1 0) u ∧ (u.part 0).state ≠ 0 ∧ u.partState 0 ≠ 2 ∧ (1 : Nat) < 16
      ∧ ((u.part 0).slotOf 1).isSome = true ∧ (u.part 0).activeTenant ≠ some 1 ∧ (u.part 0).regions ≠ 0
      ∧ u.scrubOver { cause := causeSwitch, part := 0, outgoing := (u.part 0).activeTenant.map (BitVec.ofNat 4)
                      incoming := some (BitVec.ofNat 4 1), regions := (u.part 0).regions } = false
      ∧ Sparse.wf u.vts = true)
    ∧ (let s := queued (entryBytes 0xF04 0 0) {}
       let u := begun s (command 4 15 0)
       Rules.begins s 0 4 (entryBytes 0xF04 0 0) (command 4 15 0) u ∧ (u.part 0).slotOf 15 = none
      ∧ s.healthState = s.health.hstate)
    ∧ (let s := twoTenants (queued (entryBytes 5 0 0) {})
       let u := begun s (command 5 0 0)
       Rules.begins s 0 5 (entryBytes 5 0 0) (command 5 0 0) u ∧ (u.part 0).state ≠ 0 ∧ u.partState 0 = 1 ∧ (0 : Nat) < 16
      ∧ ((u.part 0).slotOf 0).isSome = true ∧ (Sparse.get u.nets (netKey 0 0)).resident = false ∧ Sparse.wf u.vts = true
      ∧ (u.part 0).activeTenant = some 0 ∧ u.activeKeys 0 = [0]
      ∧ u.scrubOver { cause := causeEvict, part := 0, outgoing := some (BitVec.ofNat 4 0)
                      regions := (u.part 0).regions } = false) := by
  unfold Rules.begins
  refine ⟨?_, ?_, ?_, ?_⟩ <;> dsimp only <;> refine ⟨?_, ?_⟩ <;> decide +kernel

/-- An EVICT of the active tenant with its network resident, not started and started. -/
theorem witness_LaunchQueues_evict :
    (let s := ({ twoTenants (queued (entryBytes 5 0 0) {}) with nets := [(0, net5)] } : State)
     let u := begun s (command 5 0 0)
     let w := Sparse.get u.nets (netKey 0 0)
     Rules.begins s 0 5 (entryBytes 5 0 0) (command 5 0 0) u ∧ ((u.part 0).state ≠ 0 ∧ u.partState 0 = 1 ∧ (0 : Nat) < 16
      ∧ ((u.part 0).slotOf 0).isSome = true ∧ w.resident = true ∧ w.started = false ∧ (u.part 0).activeTenant = some 0
      ∧ u.scrubOver { cause := causeEvict, part := 0, outgoing := some (BitVec.ofNat 4 0)
                      regions := (u.part 0).regions } = false))
    ∧ (let s := ({ twoTenants (queued (entryBytes 5 0 0) {}) with nets := [(0, { net5 with started := true })] } : State)
       let u := begun s (command 5 0 0)
       let w := Sparse.get u.nets (netKey 0 0)
       Rules.begins s 0 5 (entryBytes 5 0 0) (command 5 0 0) u ∧ w.resident = true ∧ w.started = true
      ∧ u.scrubOver { cause := causeEvict, part := 0, outgoing := some (BitVec.ofNat 4 0)
                      regions := (u.part 0).regions } = false) := by
  unfold Rules.begins
  refine ⟨?_, ?_⟩ <;> dsimp only <;> refine ⟨?_, ?_⟩ <;> decide +kernel

theorem witness_LaunchQueues_queues :
    (let s := ({ up { v := 4 } with queues := [(47, { qsize := 2 })] } : State)
     (47 : Nat) < 48 ∧ s.barOpen = true
      ∧ ((s.arg.v.setWidth 32 : BitVec 32) - (Sparse.get s.queues 47).lqhd).toNat ≤ 2 ^ (Sparse.get s.queues 47).qsize.toNat)
    ∧ (let s := ({ up {} with queues := [(0, { en := true, done := [{}], qsize := 1, cqtl := 1 })] } : State)
       let b := Sparse.get s.queues 0
       b.done = {} :: [] ∧ b.en = true ∧ s.up.hostLink = true ∧ (b.cqtl - b.cqhd).toNat < 2 ^ b.qsize.toNat)
    ∧ ((up {}).up.reset = false ∧ (up {}).up.hostLink = true)
    ∧ (let s : State := { up { n := 15 } with up := { vfs := true, reset := false, hostLink := true } }
       s.up.reset = false ∧ s.up.hostLink = true ∧ s.up.vfs = true ∧ 1 ≤ s.arg.n ∧ s.arg.n ≤ 15)
    ∧ (let s := ({ up {} with nets := [(0, { net5 with
          started := true
          places := [{ entry := 8 }] })] } : State)
       s.mayStart 0 = true ∧ (s.tile 0).lost = false ∧ s.active 0 = true ∧ (s.tile 0).freeze = none
      ∧ (s.tile 0).replay = none ∧ (s.tile 0).runs = true
      ∧ (s.netOf 0).places.filter (fun p => decide (p.vtile = 0 % 65536)) = [{ entry := 8 }])
    ∧ (let s := atTile { im := { pool := [{ entry := 8 }] } } {}
       (s.tile 0).im.pool = { entry := 8 } :: [] ∧ (s.tile 0).emptySlot = some 0 ∧ (s.tile 0).freeze = none
      ∧ (s.tile 0).lost = false)
    ∧ (let s := atTile { im := { procs := [(7, { st := .ready, ageing := 256 })] } } { q := 7 }
       (s.procAt 0 7).st = .ready ∧ 256 ≤ (s.procAt 0 7).ageing.toNat) := by decide +kernel

/-! Partitions, links, the blade and the registers. -/

/-- Region 0 is on and divided; a change of the regions m is asked for with the word v. -/
def asked (m : BitVec 48) (v : Word) : State := { up { v := v } with
  regions := [(0, { power := .on, divided := true })]
  ten := { pcregions := m } }

theorem witness_PartitionsAndScrubs_changes :
    (let s := asked 0 0x10000
     let x : State := { s with ten := s.ten.setPcop s.arg.v }
     s.up.phase = 7 ∧ s.barOpen = true ∧ s.arg.v.getLsbD 16 = true ∧ (s.arg.v.setWidth 2 : BitVec 2) = 0 ∧ s.ten.changing = false
      ∧ x.partsWith x.ten.pcregions = [] ∧ x.changeRefuses [firstIndex x.ten.pcregions] ≠ 0)
    ∧ (let s := asked 1 0x10000
       let x : State := { s with ten := s.ten.setPcop s.arg.v }
       s.up.phase = 7 ∧ s.arg.v.getLsbD 16 = true ∧ (s.arg.v.setWidth 2 : BitVec 2) = 0 ∧ s.ten.changing = false
      ∧ x.partsWith x.ten.pcregions = [0] ∧ x.changeRefuses [0] = 0
      ∧ (∃ k ∈ [0].flatMap s.activeKeys, (s.tile k).lost = false ∧ (s.tile k).freeze = none))
    ∧ (let s := asked 1 0x10001
       let x : State := { s with ten := s.ten.setPcop s.arg.v }
       (s.arg.v.setWidth 2 : BitVec 2) = 1 ∧ x.partsWith x.ten.pcregions = [0] ∧ x.changeRefuses [0] = 0) := by
  decide +kernel

theorem witness_PartitionsAndScrubs_admission :
    (let s := twoTenants (asked 0 0x1000A)
     let u : State := { s with parts := [(0, { regions := 1, v0 := true, dual := true, state := 1, tiles := [0] })] }
     let x := u.ten.setPcop u.arg.v
     u.up.phase = 7 ∧ u.barOpen = true ∧ u.arg.v.getLsbD 16 = true ∧ (u.arg.v.setWidth 2 : BitVec 2) = 2 ∧ u.ten.changing = false
      ∧ x.pcpart.toNat = 0 ∧ (u.part 0).state = 1 ∧ (u.part 0).slotOf x.pctenant.toNat = none
      ∧ (u.part 0).vacant = some 1 ∧ (u.part 0).isActive 1 = false)
    ∧ (let s := asked 0 0x10002
       let u : State := { s with parts := [(0, { regions := 1, dual := true, state := 1, tiles := [0] })] }
       let x := u.ten.setPcop u.arg.v
       x.pcpart.toNat = 0 ∧ (u.part 0).state = 1 ∧ (u.part 0).slotOf x.pctenant.toNat = none
      ∧ (u.part 0).vacant = some 0 ∧ (u.part 0).isActive 0 = true)
    ∧ (let s := asked 0 0
       let u : State := { s with
         parts := [(0, { regions := 1, v0 := true, dual := true, state := 1, tiles := [0] })]
         ten := { pcphase := 3, pcop := 2, pctenant := 5, pcslot := 1 } }
       u.ten.pcphase = 3 ∧ u.scrubOfChange = none ∧ u.ten.pcop = 2 ∧ u.ten.pcpart.toNat = 0 ∧ u.ten.pcslot = 1
      ∧ (u.part 0).state ≠ 0 ∧ u.partState 0 = 1) := by
  decide +kernel

theorem witness_PartitionsAndScrubs_rest :
    (let s := ({ asked 0 0 with scrubs := [{ cause := causeForm, regions := 1 }], ten := { pcphase := 3 } } : State)
     ∃ sc, s.scrubs = [sc] ∧ sc.regions.getLsbD (regionPath.getD (regionOf 0) 0) = true ∧ sc.cause = causeForm
      ∧ s.scrubbable 0 = true ∧ s.ten.pcphase = 3)
    ∧ (let s := ({ asked 0 0 with receipts := [{ rseq := 1, signed := true }, { rseq := 2 }] } : State)
       ∃ r, s.receipts.find? (fun r => !r.signed) = some r)
    ∧ (let s := asked 0 0x100
       s.up.phase = 7 ∧ s.barOpen = true ∧ s.arg.v.getLsbD 8 = true ∧ (s.arg.v.setWidth 6 : BitVec 6).toNat = 0 ∧ s.up.rgphase ≠ 1
      ∧ s.resetRefuses 0 = 0 ∧ ∀ n ∈ neighbours 0, (s.region n).emPower = false ∧ (s.region n).emSupply = false)
    ∧ (let s := asked 0 0x130
       (s.arg.v.setWidth 6 : BitVec 6).toNat = 48 ∧ s.resetRefuses 48 ≠ 0)
    ∧ (let s := ({ asked 0 0 with up := { rgphase := 1 } } : State)
       s.up.rgphase = 1 ∧ (s.region s.up.rgact.toNat).power = .on ∧ s.arg.bad = []) :=
  ⟨⟨_, rfl, by decide +kernel, rfl, by decide +kernel, rfl⟩, ⟨_, rfl⟩, by decide +kernel, by decide +kernel,
    by decide +kernel⟩

/-- A panel with its optical port 0 live at a rate, its lane 0 working. -/
def wired (a : EvArgs) : State := { up a with
  links := [(14544, { rate := 100 }), (14592, { rate := 100 })]
  optPorts := [(0, { lanes := [0] })] }

theorem witness_LinksPortsAndBlade_links :
    (let s := wired { n := 14544, c := 3, rate := 99 }
     let l := Sparse.get s.links 14544
     14544 < 14593 ∧ s.links ≠ [] ∧ l.cond ≠ 15 ∧ 1 ≤ s.arg.c ∧ s.arg.c ≤ 3 ∧ s.arg.rate.toNat < l.rate.toNat)
    ∧ (let s := wired { n := 14592, c := 15 }
       14592 < 14593 ∧ (Sparse.get s.links 14592).cond ≠ 15 ∧ s.arg.c = 15)
    ∧ (wired {}).up.hostLink = true
    ∧ (((wired { c := 1 }).lane 0 0).toAck.length < 254 ∧ (((wired {}).lane 0 0).bad.filter (fun x => x == 0)).length < 15
      ∧ (wired { c := 1 }).arg.c = 1 ∧ (wired { c := 1 }).linkLive 14544 = true
      ∧ ((List.range 64).map (fun l => ((wired { c := 1 }).lane 0 l).toAck.length)).foldl (· + ·) 0 ≤ 160)
    ∧ ((Sparse.get (wired {}).optPorts 0).lanes.contains 0 = true ∧ (wired {}).linkLive (14544 + 0) = true
      ∧ (wired {}).arg.ok = false ∧ (wired { ok := true }).arg.ok = true)
    ∧ (∃ a : AckRecord, (wired { acks := [a] }).arg.acks = [a] ∧ a.resend = false)
    ∧ ((inPhase 4 {}).up.phase = 4 ∧ ((inPhase 4 {}).lane 47 63).failed = false
      ∧ ((inPhase 4 {}).lane 47 63).locked = false) :=
  ⟨by decide +kernel, by decide +kernel, by decide +kernel, by decide +kernel, by decide +kernel, ⟨{ seq := 0, lane := 0, resend := false, pair := 0 }, rfl, rfl⟩,
    by decide +kernel⟩

/-- A step of the blade's eviction. -/
def evAt (n : BitVec 4) : State := { wired {} with ev := { step := n, ports := 1 } }

theorem witness_LinksPortsAndBlade_blade :
    ((wired {}).up.phase = 7 ∧ (wired {}).evicting = false)
    ∧ ((evAt 1).ev.step = 1 ∧ ∀ e ∈ (evAt 1).rel.rotations, e.2 = none)
    ∧ (let s := ({ evAt 2 with vts := [(0, { freeze := some { kind := .blade, stage := .quiescent } })] } : State)
       s.ev.step = 2 ∧ s.evKeys = [0] ∧ ∀ k ∈ s.evKeys, s.evAtRest k = true)
    ∧ (let s := ({ evAt 3 with ev := { step := 3, ports := 1, todo := [(0, 0)] }, arg := { c := 1 } } : State)
       s.ev.step = 3 ∧ s.arg.c = 1 ∧ s.livePorts ≠ [] ∧ (∀ p ∈ s.livePorts, 0 < (s.opticalLink p).rate.toNat)
      ∧ s.ev.todo.find? (fun x => !(s.region (regionOf (s.tile x.1).ptile)).emergency) = some (0, 0))
    ∧ (let s := ({ evAt 3 with ev := { step := 3, ports := 1, todo := [(0, 0)] }, arg := { c := 1 }, regions := [(0, { power := .on, emFlow := true })] } : State)
       s.ev.step = 3 ∧ s.arg.c = 1 ∧ ∀ x ∈ s.ev.todo, (s.region (regionOf (s.tile x.1).ptile)).emergency = true)
    ∧ ((evAt 3).ev.step = 3 ∧ (evAt 3).arg.c ≠ 1 ∧ (evAt 3).ev.todo = [] ∧ (evAt 3).livePorts ≠ [])
    ∧ ((evAt 4).ev.step = 4 ∧ (evAt 4).heldRoutes = [] ∧ (evAt 4).farOut = []
      ∧ ∀ v ∈ (evAt 4).vts, ∀ c ∈ v.2.im.copies, c.2.sent = [])
    ∧ ((evAt 5).evicting = true ∧ (evAt 5).ev.latchOpen = false)
    ∧ ({ evAt 5 with ev := { safe := true } } : State).ev.safe = true
    ∧ ((evAt 0).ev.safe = false ∧ (evAt 0).ev.supplyAbsent = false)
    ∧ (let s := ({ evAt 0 with health := { supplyOut := true }, time := 60000000000 } : State)
       s.health.supplyOut = true ∧ 60000000000 ≤ s.health.absentNs + (s.time.toNat - s.health.supplySince.toNat)) := by decide +kernel

theorem witness_RegistersAndRecords_registers :
    (let s := inPhase 1 { n := 0x10, v := 0x1000 }
     (0x10 < 0x30 ∧ s.up.reset = false ∧ s.up.hostLink = true ∧ s.up.d3 = false) ∧ s.arg.space = .pf ∧ s.arg.ok = false ∧ s.arg.n = 0x10
      ∧ 0x1000 = Rules.written (s.readReg .pf 0x10) s.arg.ok (s.arg.n / 4 % 2) s.arg.v
      ∧ (0x10, (~~~0x3F : Word)) ∈ Rules.registers)
    ∧ (let s := up { n := 0x80001C, ok := true, v := 9 }
       s.barOpen = true ∧ s.arg.n = 0x800018 + 4 ∧ s.arg.ok = true
      ∧ (0x800018, (0xFFFFFFFF0000FF01 : Word)) ∈ Rules.registers)
    ∧ ((up { n := 0x28 }).arg.n ∈ [0x00, 0x08, 0x28, 0x68, 0x78, 0x400000, 0x401020, 0x402000, 0x402010, 0x800038]
      ∧ (up { n := 0x28 }).arg.space = .pf)
    ∧ (let s := up { n := 0x200008, v := 1 }
       s.barOpen = true ∧ s.arg.space = .pf ∧ s.arg.ok = false)
    ∧ (let s := ({ up {} with up := { phase := 7, reset := false } } : State)
       s.up.hostLink = false ∧ s.arg.space = .pf)
    ∧ (let s := up { n := 0x201, space := .idhan }
       s.arg.space = .idhan ∧ s.arg.n = 0x201) := by decide +kernel

theorem witness_RegistersAndRecords_plain :
    Rules.plainWrite (up { n := 0x10010 }) 0x10010 0
    ∧ Rules.plainWrite (up { n := 0x10030 }) 0x10030 0 ∧ Rules.plainWrite (up { n := 0x60 }) 0x60 0x2F
    ∧ Rules.plainWrite (up { n := 0x401008 }) 0x401008 0xFFFF ∧ Rules.plainWrite (up { n := 0x800000 }) 0x800000 0 := by
  refine ⟨?_, ?_, ?_, ?_, ?_⟩ <;> refine ⟨by decide, fun q hq => ⟨fun _ => ?_, fun _ => ?_, fun _ => ?_⟩, by decide, by decide⟩ <;>
    first | rfl | exact ⟨rfl, rfl, rfl⟩

/-- Tenant 5 in slot 0 of partition 0, with virtual functions. -/
def tenanted : State := { up { n := 0x0C, space := .vf 5 } with
  up := { phase := 7, reset := false, hostLink := true, vfs := true }
  parts := [(0, { regions := 1, v0 := true, t0 := 5, state := 1, tiles := [0] })] }

theorem witness_RegistersAndRecords_function :
    (let s := { tenanted with arg := { n := 0x08, space := .vf 5, v := 7 } }
     s.barOpen = true ∧ s.up.vfs = true ∧ s.arg.ok = false ∧ s.arg.n % 8 = 0
      ∧ ∃ slot, s.vfSlot 5 s.arg.n = some slot ∧ (Sparse.get s.queues (s.arg.n / 64)).ringEmpty slot = true) :=
  ⟨by decide +kernel, rfl, rfl, by decide, _, rfl, by decide +kernel⟩

theorem witness_RegistersAndRecords :
    (let s := ({ up {} with time := 60000000000 } : State)
     60000000000 ≤ s.time.toNat - s.health.saveTime.toNat)
    ∧ (let s := ({ up {} with health := { pending := [{}] } } : State)
       s.health.pending = {} :: [] ∧ ({} : Retirement).waits = false ∧ s.arg.c ≠ 1)
    ∧ (let s := ({ up { c := 1, j := 4 } with health := { pending := [{}] } } : State)
       s.health.pending = {} :: [] ∧ s.arg.c = 1)
    ∧ (∃ r : Retirement, r.waits = true ∧ ({ up {} with health := { pending := [r] } } : State).health.pending = r :: []) :=
  ⟨by decide +kernel, by decide +kernel, by decide +kernel, { waits := true }, rfl, rfl⟩

/-! The machine as a whole. -/

/-- The reset state meets the canonical form, and steps; so does a state with bytes and a vtile. -/
theorem witness_StepKeepsCanonical :
    Canonical State.reset ∧ (∃ t, step { State.reset with inputs := [(.perstDeassert, {})] } = .next t)
    ∧ Canonical { atTile { tick := 1 } {} with hbm := [(5, 1)] }
    ∧ ∃ t, step { atTile { tick := 1 } {} with hbm := [(5, 1)] } = .next t :=
  ⟨⟨rfl, rfl, rfl, rfl, rfl⟩, ⟨_, rfl⟩, ⟨by decide, by decide, by decide, by decide +kernel, rfl⟩, ⟨_, rfl⟩⟩

/-- The word of add g5, g6, g7. -/
def addWord : BitVec 32 := 0x00#7 ++ 5#5 ++ 6#5 ++ 7#5 ++ 1#10
/-- A tile whose slot 0 is READY at a word. -/
def atWord (w : BitVec 32) : State := atTile (fetchVTile w.toNat) {}

theorem witness_StepRunsTheDecodedInstruction :
    (let s := atWord addWord
     s.task = .issue 0 true ∧ (s.tile 0).choose true = some 0 ∧ decode ((s.tile 0).fetch 0) = .ok (.add 5 6 7)
      ∧ (s.startIssue 0 0 true).accesses (.add 5 6 7) = false ∧ (s.startIssue 0 0 true).peer = none ∧ (s.tile 0).replay = none)
    ∧ (let s := atWord 0xFE000000
       s.task = .issue 0 true ∧ (s.tile 0).choose true = some 0 ∧ decode ((s.tile 0).fetch 0) = .error .badMajor)
    ∧ (let s := ({ atWord addWord with turn := { phase := 1 } } : State)
       s.task = .issue 0 false ∧ (s.tile 0).choose false = none)
    ∧ (let s := ({ State.reset with inputs := [(.perstDeassert, {})] } : State)
       s.task = .fabric ∧ isEvent .perstDeassert = true)
    ∧ (let s := ({ atWord addWord with turn := { phase := 2 } } : State)
       s.task = .tcEnd 0)
    ∧ (State.reset.task = .fabric ∧ State.reset.inputs = []
      ∧ ((∃ i a, State.reset.chosen = some (i, a)) ∨ State.reset.chosen = none))
    ∧ ∀ k q, State.reset.fabricTurn.mayExpire k q = false := by
  refine ⟨⟨rfl, by decide +kernel, rfl, by decide +kernel, by decide +kernel, rfl⟩, ⟨rfl, by decide +kernel, rfl⟩, ⟨rfl, by decide +kernel⟩, ⟨rfl, rfl⟩, rfl,
    ⟨rfl, rfl, ?_⟩, fun k q => rfl⟩
  cases h : State.reset.chosen with
  | none => exact .inr rfl
  | some x => exact .inl ⟨x.1, x.2, rfl⟩

theorem witness_IssueChoice :
    (let t := (atWord addWord).tile 0
     t.runs = true ∧ t.replayHolds true = false ∧ t.ahead = none ∧ t.monitorIssues true = false ∧ t.choose true = some 0
      ∧ t.canIssue true 0 = true ∧ t.hasIssued 0 = false ∧ t.choose false = none)
    ∧ (let t : VTile := { reqReg := true, monCode := Memory.write [] 0 (toBytes 4 addWord.toNat) }
       t.runs = true ∧ t.replayHolds true = false ∧ t.monitorIssues true = true)
    ∧ (let t : VTile := { ahead := some { who := 1 } }
       t.runs = true ∧ t.replayHolds false = false ∧ ∃ h, t.ahead = some h ∧ h.who = 1) :=
  ⟨by decide +kernel, by decide +kernel, by decide +kernel, by decide +kernel, _, rfl, rfl⟩

theorem witness_YieldGoesBehind :
    (∃ w, encode .yield = some w) ∧ (atWord 0).inMonitor = false
    ∧ (let u := (atWord addWord).tile 0
       let t : VTile := { u with im := { u.im with
         procs := [(0, { st := .ready, prio := 3 }), (1, { st := .ready })]
         rrA := 0 } }
       t.ahead = none ∧ t.im.rrA = BitVec.ofNat 3 0 ∧ t.choose true = some 0 ∧ t.canIssue true 1 = true ∧ t.hasIssued 1 = false) :=
  ⟨⟨_, rfl⟩, by decide +kernel, by decide +kernel⟩

theorem witness_InstructionsStayOnTheirTile :
    addr.presenting = false ∧ (encode (.std 5 6 8)).isSome = true ∧ (∃ t, exec (.std 5 6 8) addr = .next t)
    ∧ ∃ t, exec (.illegalEncoding 0) addr = .next t :=
  ⟨rfl, by decide +kernel, ⟨_, rfl⟩, ⟨_, rfl⟩⟩

theorem witness_EncodingRoundTrip :
    ((Instr.vld 31 30 15 3 .f32).wf = true ∧ ∃ w, encode (.vld 31 30 15 3 .f32) = some w)
    ∧ ((Instr.slotctlKill 5 6).wf = true ∧ ∃ w, encode (.slotctlKill 5 6) = some w) :=
  ⟨⟨by decide, _, rfl⟩, ⟨by decide, _, rfl⟩⟩

theorem witness_EveryWordHasOneMeaning : decode addWord = .ok (.add 5 6 7) := rfl
end Sys2Proof.Tests
end

section
/-! SUPPORT. Every instruction and every event goes on (R8), and what a turn makes a step of. -/

namespace Sys2Proof.Machine

/-! Every instruction and every event goes on (R8). -/

theorem vector_next (s : State) (rd wr : List Reg) (f : State → State) : ∃ t, s.vector rd wr f = .next t := by
  unfold State.vector
  split
  · exact ⟨_, rfl⟩
  · exact ⟨_, rfl⟩

theorem elemLoad_next (s : State) (d a : Reg) (m : MReg) (ty : LaneTy) (pre : List Reg) (off : Nat → Int) :
    ∃ t, s.elemLoad d a m ty pre off = .next t := by
  unfold State.elemLoad
  split
  · exact ⟨_, rfl⟩
  · exact vector_next _ _ _ _

theorem elemStore_next (s : State) (d a : Reg) (m : MReg) (ty : LaneTy) (pre : List Reg) (off : Nat → Int) :
    ∃ t, s.elemStore d a m ty pre off = .next t := by
  unfold State.elemStore
  split
  · exact ⟨_, rfl⟩
  · exact vector_next _ _ _ _

theorem execVld_next (d a : Reg) (o : BitVec 5) (m : MReg) (ty : LaneTy) (s : State) :
    ∃ t, execVld d a o m ty s = .next t := by
  unfold execVld
  split
  · exact ⟨_, rfl⟩
  · exact vector_next _ _ _ _

theorem execVst_next (d a : Reg) (o : BitVec 5) (m : MReg) (ty : LaneTy) (s : State) :
    ∃ t, execVst d a o m ty s = .next t := by
  unfold execVst
  split
  · exact ⟨_, rfl⟩
  · exact vector_next _ _ _ _

theorem execVgat_next (d a b : Reg) (m : MReg) (ty : LaneTy) (s : State) : ∃ t, execVgat d a b m ty s = .next t := by
  unfold execVgat
  split
  · exact ⟨_, rfl⟩
  · exact elemLoad_next _ _ _ _ _ _ _

theorem execVsct_next (d a b : Reg) (m : MReg) (ty : LaneTy) (s : State) : ∃ t, execVsct d a b m ty s = .next t := by
  unfold execVsct
  split
  · exact ⟨_, rfl⟩
  · exact elemStore_next _ _ _ _ _ _ _

/-- Every instruction but rep goes on, and every event. -/
theorem exec_next_of_ne_rep (i : Instr) (s : State) (h : ∀ a k, i ≠ .rep a k) : ∃ t, exec i s = .next t := by
  cases i
  case rep a k => exact absurd rfl (h a k)
  case vadd | vsub | vmul | vfma | vfms | vmin | vmax | vdot | vand | vor | vxor | vandn | vshl | vshr | vsra | vsel |
      vabs | vneg | vexp2 | vlog2 | vrcp | vrsq | vsqrt | vrng | vcmpEq | vcmpNe | vcmpLt | vcmpLe | vredSum | vredMin
      | vredMax | vbcast | vext | vins | vperm | vcvt | vmxq | vmxd =>
    simp only [exec, execVadd, execVsub, execVmul, execVfma, execVfms, execVmin, execVmax, execVdot, execVand,
      execVor, execVxor, execVandn, execVshl, execVshr, execVsra, execVsel, execVabs, execVneg, execVexp2, execVlog2,
      execVrcp, execVrsq, execVsqrt, execVrng, execVcmpEq, execVcmpNe, execVcmpLt, execVcmpLe, execVredSum,
      execVredMin, execVredMax, execVbcast, execVext, execVins, execVperm, execVcvt, execVmxq, execVmxd, State.lane2,
      State.laneFused, State.laneMinmax, State.laneBitwise, State.lane1, State.special, State.vcompare, State.reduce,
      State.perLane, vector_next]
  case vld => exact execVld_next _ _ _ _ _ _
  case vst => exact execVst_next _ _ _ _ _ _
  case vlds => exact elemLoad_next _ _ _ _ _ _ _
  case vsts => exact elemStore_next _ _ _ _ _ _ _
  case vgat => exact execVgat_next _ _ _ _ _ _
  case vsct => exact execVsct_next _ _ _ _ _ _
  case time =>
    simp only [exec, execTime]
    repeat' split
    all_goals exact ⟨_, rfl⟩
  case deliveryFails | deadlinePasses | virtualChannelFreed | stubForward | messageReturnedToSource | lastByteWritten
      | deadboltProbeMessage | deadboltReport | translationWalkComplete | translationEntryApplied | tlbinvComplete |
      translationWindowWrite =>
    simp only [exec, execDeliveryFails, execDeadlinePasses, execVirtualChannelFreed, execStubForward,
      execMessageReturnedToSource, execLastByteWritten, execDeadboltProbeMessage, execDeadboltReport,
      execTranslationWalkComplete, execTranslationEntryApplied, execTlbinvComplete, execTranslationWindowWrite]
    repeat' split
    all_goals exact ⟨_, rfl⟩
  case matrixCommandComplete | copyElement | cpyxElementAck | cpyxReadDataArrives | cpyxWatchdogExpiry |
      cpyxAbortTimeout | cpyxPauseAckTimeout | inputPumpPrefetch | outputPumpWrite =>
    simp only [exec, execMatrixCommandComplete, execCopyElement, execCpyxElementAck, execCpyxReadDataArrives,
      execCpyxWatchdogExpiry, execCpyxAbortTimeout, execCpyxPauseAckTimeout, execInputPumpPrefetch,
      execOutputPumpWrite]
    repeat' split
    all_goals exact ⟨_, rfl⟩
  case monitorWake | monitorTimeout | hfqAppendComplete | freezeRequestAccepted | tileQuiescent | freezeRelease |
      ckintExpiry | ckminExpiry | checkpointCommit | rollback | replayEnd =>
    simp only [exec, execMonitorWake, execMonitorTimeout, execHfqAppendComplete, execFreezeRequestAccepted,
      execTileQuiescent, execFreezeRelease, execCkintExpiry, execCkminExpiry, execCheckpointCommit, execRollback,
      execReplayEnd]
    repeat' split
    all_goals exact ⟨_, rfl⟩
  case supplyOutOfRange | supplyPowerdown | supplyBackInRange | supplyAbsent60s | coolantFlowLow |
      coolantFlowPowerdown | coolantFlowRestored | rampWaitLimit | rampNeighbourRelease | regionRampComplete =>
    simp only [exec, execSupplyOutOfRange, execSupplyPowerdown, execSupplyBackInRange, execSupplyAbsent60s,
      execCoolantFlowLow, execCoolantFlowPowerdown, execCoolantFlowRestored, execRampWaitLimit,
      execRampNeighbourRelease, execRegionRampComplete]
    repeat' split
    all_goals exact ⟨_, rfl⟩
  case correctedError | rotationStepStart | rotationWarmComplete | routerMapUpdate | routerMapAck | screeningComplete
      | vtileLost | tileFailure | stackLost | wellPageLost | reportWrite | nvCounterSave | retirementLogCommit =>
    simp only [exec, execCorrectedError, execRotationStepStart, execRotationWarmComplete, execRouterMapUpdate,
      execRouterMapAck, execScreeningComplete, execVtileLost, execTileFailure, execStackLost, execWellPageLost,
      execReportWrite, execNvCounterSave, execRetirementLogCommit]
    repeat' split
    all_goals exact ⟨_, rfl⟩
  case perstDeassert | bundleCheckDone | linkTrainingDone | bistDone | hostLinkDown | flrPf | flrVf | ptmRequest |
      ieee1588SyncMessage | regionResetDone | monitorReloadDone | registerWrite =>
    simp only [exec, execPerstDeassert, execBundleCheckDone, execLinkTrainingDone, execBistDone, execHostLinkDown,
      execFlrPf, execFlrVf, execPtmRequest, execIeee1588SyncMessage, execRegionResetDone, execMonitorReloadDone,
      execRegisterWrite]
    repeat' split
    all_goals exact ⟨_, rfl⟩
  case networkStart | doorbellWrite | completionRecordWrite | partitionForm | partitionDissolve | partitionAdmit |
      partitionChangeDone | scrubComplete | receiptSigned =>
    simp only [exec, execNetworkStart, execDoorbellWrite, execCompletionRecordWrite, execPartitionForm,
      execPartitionDissolve, execPartitionAdmit, execPartitionChangeDone, execScrubComplete, execReceiptSigned]
    repeat' split
    all_goals exact ⟨_, rfl⟩
  case linkDegrade | opticalDataCodeword | opticalAckCodeword | opticalTrainingCodeword | opticalSignalLoss |
      laneLockTimeout | evictionFrozen | evictionSendDone | fabricDrained | bladeUnlatch =>
    simp only [exec, execLinkDegrade, execOpticalDataCodeword, execOpticalAckCodeword, execOpticalTrainingCodeword,
      execOpticalSignalLoss, execLaneLockTimeout, execEvictionFrozen, execEvictionSendDone, execFabricDrained,
      execBladeUnlatch]
    repeat' split
    all_goals exact ⟨_, rfl⟩
  all_goals exact ⟨_, rfl⟩

/-- An iteration of a rep goes on as the repeated instruction does. -/
theorem bExec_next (i : Instr) (s : State) : ∃ t, bExec i s = .next t := by
  have h := exec_next_of_ne_rep i s
  unfold bExec
  split
  case h_94 => exact ⟨_, rfl⟩
  all_goals exact h nofun

theorem execRep_next (a : Reg) (k : BitVec 3) (s : State) : ∃ t, execRep a k s = .next t := by
  simp only [execRep]
  split
  · exact ⟨_, rfl⟩
  split
  · exact ⟨_, rfl⟩
  split
  · exact ⟨_, rfl⟩
  split
  · exact ⟨_, rfl⟩
  · rename_i i _
    obtain ⟨t, ht⟩ := bExec_next i s
    exact ⟨_, by rw [ht]⟩

/-- Every instruction and every event goes on to a next state: none is refused, and none stops the machine (R8). -/
theorem exec_next (i : Instr) (s : State) : ∃ t, exec i s = .next t := by
  by_cases h : ∃ a k, i = .rep a k
  · obtain ⟨a, k, rfl⟩ := h
    exact execRep_next a k s
  · exact exec_next_of_ne_rep i s (fun a k e => h ⟨a, k, e⟩)

/-! What a turn makes a step of. -/

theorem step_issue {s : State} {k q : Nat} {a : Bool} (ht : s.task = .issue k a) (hq : (s.tile k).choose a = some q) :
    step s = exec ((s.tile k).instrAt q) ((s.startIssue k q a).overtaken ((s.tile k).instrAt q)) := by
  simp only [step, ht, hq]

theorem step_idle {s : State} {k : Nat} {a : Bool} (ht : s.task = .issue k a) (hq : (s.tile k).choose a = none) :
    step s = .next (s.idleIssue k a) := by
  simp only [step, ht, hq]

theorem step_tcEnd {s : State} {k : Nat} (ht : s.task = .tcEnd k) : step s = .next (s.tcEnd k).pass := by
  simp only [step, ht]

theorem step_event {s : State} {i : Instr} {a : EvArgs} (ht : s.task = .fabric) (he : s.turnEvent = some (i, a)) :
    step s = exec i (s.startEvent a) := by
  simp only [step, ht, he]

theorem step_noEvent {s : State} (ht : s.task = .fabric) (he : s.turnEvent = none) : step s = .next s.idleTurn := by
  simp only [step, ht, he]

/-- Every step goes on (R8). -/
theorem safe_all (s : State) : Safe s := by
  unfold Safe
  cases ht : s.task with
  | issue k a =>
    cases hq : (s.tile k).choose a with
    | none => exact ⟨_, step_idle ht hq⟩
    | some q => rw [step_issue ht hq]; exact exec_next _ _
  | tcEnd k => exact ⟨_, step_tcEnd ht⟩
  | fabric =>
    cases he : s.turnEvent with
    | none => exact ⟨_, step_noEvent ht he⟩
    | some x => rw [step_event (i := x.1) (a := x.2) ht he]; exact exec_next _ _

end Sys2Proof.Machine
end

section
/-! SUPPORT. What an issue, the events between those of an access, and the turn of the fabric leave as it was; and O54. -/

namespace Sys2Proof.Machine

/-! The word fetched. -/

theorem ofBytes_lt (l : List Byte) : ofBytes l < 256 ^ l.length := by
  induction l with
  | nil => simp [ofBytes]
  | cons b r ih =>
    have hb : b.toNat < 256 := b.isLt
    simp only [ofBytes, List.length_cons, Nat.pow_succ]
    omega

/-- A process fetches the 4 bytes at its pc, lowest first (R133). -/
theorem VTile.toNat_fetch (t : VTile) {q : Nat} (hq : q ≠ monitorCtx) :
    (t.fetch q).toNat = ofBytes (Memory.read t.im.code (t.proc q).pc.toNat 4) := by
  have hlt := ofBytes_lt (Memory.read t.im.code (t.proc q).pc.toNat 4)
  rw [Memory.length_read, show (256 : Nat) ^ 4 = 2 ^ 32 by rfl] at hlt
  rw [VTile.fetch, if_neg hq, VTile.codeWord, BitVec.toNat_ofNat, Nat.mod_eq_of_lt hlt]

theorem VTile.instrAt_of_ok {t : VTile} {q : Nat} {i : Instr} (h : decode (t.fetch q) = .ok i) : t.instrAt q = i := by
  simp only [VTile.instrAt, instrOf, h]

theorem VTile.instrAt_of_error {t : VTile} {q : Nat} {e : DecodeErr} (h : decode (t.fetch q) = .error e) :
    t.instrAt q = .illegalEncoding (t.fetch q) := by
  simp only [VTile.instrAt, instrOf, h]

/-! Logging and booking leave everything but the log and the bookkeeping of issues. -/

@[simp] theorem VTile.logEntry_im (t : VTile) (e : LogEntry) : (t.logEntry e).im = t.im := by
  unfold VTile.logEntry; split <;> rfl

/-- The tile store and the translation of a vtile: what a byte of its address space reads through. -/
def VTile.memory (t : VTile) : Memory × Nat × Sparse Word × Sparse Word := (t.im.store, t.ptile, t.pt, t.tlb)

@[simp] theorem VTile.logEntry_memory (t : VTile) (e : LogEntry) : (t.logEntry e).memory = t.memory := by
  unfold VTile.logEntry; split <;> rfl

@[simp] theorem VTile.issued_memory (t : VTile) (a : Bool) (q : Nat) : (t.issued a q).memory = t.memory := by
  unfold VTile.issued
  cases a <;> simp only [Bool.false_eq_true, if_true, if_false] <;> split <;> rfl

/-- Booking an issue changes of the contexts only the ageing of the one that issues (R31). -/
theorem VTile.issued_proc (t : VTile) (a : Bool) (q r : Nat) :
    { (t.issued a q).proc r with ageing := (t.proc r).ageing, aged := (t.proc r).aged } = t.proc r := by
  by_cases hq : q = monitorCtx
  · cases a <;> simp only [VTile.issued, hq] <;> rfl
  · have hp : (t.issued a q).proc r
        = if r = q then { t.proc q with ageing := 0, aged := false } else t.proc r := by
      cases a <;> simp [VTile.issued, hq, VTile.proc, Sparse.get_upd]
    rw [hp]
    split
    · subst_vars; rfl
    · rfl

/-- The vtile as its issue finds it: the monitor's is in the log, but under a freeze. -/
def VTile.issueLogged (t : VTile) (q : Nat) (a : Bool) (time : Word) : VTile :=
  if q = monitorCtx ∧ t.freeze.isNone then t.logEntry { mon := some (.issue a), when_ := time } else t

theorem State.tile_log (s : State) (k : Nat) (e : LogEntry) (j : Nat) :
    (s.log k e).tile j = if j = k then (s.tile k).logEntry { e with when_ := s.time } else s.tile j :=
  State.tile_updTile _ _ _ _

theorem State.startIssue_tile (s : State) (k q : Nat) (a : Bool) (j : Nat) :
    (s.startIssue k q a).tile j
      = if j = k then ((s.tile k).issueLogged q a s.time).issued a q else s.tile j := by
  have hlog (j : Nat) :
      (if q = monitorCtx && (s.tile k).freeze.isNone then s.log k { mon := some (.issue a) } else s).tile j
        = if j = k then (s.tile k).issueLogged q a s.time else s.tile j := by
    simp only [VTile.issueLogged, Bool.and_eq_true, decide_eq_true_eq]
    split
    · exact State.tile_log _ _ _ _
    · split
      · subst_vars; rfl
      · rfl
  have hvts : (s.startIssue k q a).vts
      = (State.updTile (if q = monitorCtx && (s.tile k).freeze.isNone then s.log k { mon := some (.issue a) } else s)
          k (fun t => t.issued a q)).vts := rfl
  rw [State.tile, hvts, ← State.tile, State.tile_updTile, hlog, hlog, if_pos rfl]
  split <;> rfl

@[simp] theorem VTile.issueLogged_im (t : VTile) (q : Nat) (a : Bool) (time : Word) :
    (t.issueLogged q a time).im = t.im := by
  unfold VTile.issueLogged
  split
  · exact VTile.logEntry_im _ _
  · rfl

@[simp] theorem VTile.issueLogged_memory (t : VTile) (q : Nat) (a : Bool) (time : Word) :
    (t.issueLogged q a time).memory = t.memory := by
  unfold VTile.issueLogged
  split
  · exact VTile.logEntry_memory _ _
  · rfl

theorem State.startIssue_cur (s : State) (k q : Nat) (a : Bool) : (s.startIssue k q a).cur = { vt := k, who := q } := rfl

theorem State.startIssue_turn (s : State) (k q : Nat) (a : Bool) : (s.startIssue k q a).turn = s.turn.after := by
  unfold State.startIssue; split <;> rfl

theorem State.startIssue_hbm (s : State) (k q : Nat) (a : Bool) : (s.startIssue k q a).hbm = s.hbm := by
  unfold State.startIssue; split <;> rfl

/-- An issue changes of the contexts only the ageing of the one that issues (R31). -/
theorem State.startIssue_procAt (s : State) (k q : Nat) (a : Bool) (r : Nat) :
    { (s.startIssue k q a).procAt k r with ageing := (s.procAt k r).ageing, aged := (s.procAt k r).aged }
      = s.procAt k r := by
  have hproc : ((s.tile k).issueLogged q a s.time).proc r = (s.tile k).proc r := by
    rw [VTile.proc, VTile.issueLogged_im]; rfl
  have h := ((s.tile k).issueLogged q a s.time).issued_proc a q r
  rw [hproc] at h
  rw [State.procAt, State.startIssue_tile, if_pos rfl]
  exact h

/-- Bytes read as before when HBM, the tile stores and the translations are as they were. -/
theorem sameBytes_of {s t : State} (hhbm : t.hbm = s.hbm) (htile : ∀ k, (t.tile k).memory = (s.tile k).memory) :
    SameBytes s t := by
  intro k a
  have h := htile k
  simp only [VTile.memory, Prod.mk.injEq] at h
  obtain ⟨hstore, hptile, hpt, htlb⟩ := h
  simp only [State.readByte, VTile.wellPlace, VTile.entry, hhbm, hstore, hptile, hpt, htlb]

theorem State.startIssue_sameBytes (s : State) (k q : Nat) (a : Bool) : SameBytes s (s.startIssue k q a) := by
  have hhbm := State.startIssue_hbm s k q a
  apply sameBytes_of hhbm
  intro j
  rw [State.startIssue_tile]
  split
  · subst_vars; simp
  · rfl

/-! What an access of several events leaves of the contexts. -/

/-- The same context executes, and every context of every tile is as it was. -/
structure KeepsContexts (s t : State) : Prop where
  cur : t.cur = s.cur
  procAt : ∀ k q, t.procAt k q = s.procAt k q

theorem KeepsContexts.refl (s : State) : KeepsContexts s s := ⟨rfl, fun _ _ => rfl⟩

theorem KeepsContexts.trans {s t u : State} (h : KeepsContexts s t) (h' : KeepsContexts t u) : KeepsContexts s u :=
  ⟨h'.cur.trans h.cur, fun k q => (h'.procAt k q).trans (h.procAt k q)⟩

theorem KeepsContexts.proc {s t : State} (h : KeepsContexts s t) : t.proc = s.proc := by
  rw [State.proc, h.cur, h.procAt]; rfl

theorem keepsContexts_updTile (s : State) (k : Nat) {f : VTile → VTile} (hf : ∀ t, (f t).im.procs = t.im.procs) :
    KeepsContexts s (s.updTile k f) := by
  refine ⟨State.updTile_cur s k f, fun j q => ?_⟩
  rw [State.procAt, State.tile_updTile]
  split
  · subst_vars; rw [VTile.proc, hf]; rfl
  · rfl

theorem keepsContexts_updHere (s : State) {f : VTile → VTile} (hf : ∀ t, (f t).im.procs = t.im.procs) :
    KeepsContexts s (s.updHere f) := keepsContexts_updTile s s.cur.vt hf

theorem keepsContexts_log (s : State) (k : Nat) (e : LogEntry) : KeepsContexts s (s.log k e) :=
  keepsContexts_updTile s k (fun t => by rw [VTile.logEntry_im])

theorem VTile.snapshot_im (t : VTile) (hbm : Memory) (place : Nat) : (t.snapshot hbm place).im = t.im := by
  unfold VTile.snapshot
  repeat' split
  all_goals rfl

theorem keepsContexts_writeByte (s : State) (k a : Nat) (b : Byte) : KeepsContexts s (s.writeByte k a b) := by
  unfold State.writeByte
  split
  · exact keepsContexts_updTile s k (fun _ => rfl)
  · have h : KeepsContexts s (s.updTile k (fun t => t.snapshot s.hbm (t.wellPlace a))) :=
      keepsContexts_updTile s k (fun t => by rw [VTile.snapshot_im])
    exact ⟨h.cur, h.procAt⟩

theorem keepsContexts_writeBytes (s : State) (k a : Nat) (l : List Byte) : KeepsContexts s (s.writeBytes k a l) := by
  induction l generalizing s a with
  | nil => exact .refl s
  | cons b r ih => exact (keepsContexts_writeByte s k a b).trans (ih _ _)

theorem keepsContexts_storeBy (s : State) (q a : Nat) (l : List Byte) (tag : Bool) :
    KeepsContexts s (s.storeBy q a l tag) := by
  have hlog : KeepsContexts s (if q = monitorCtx then s.log s.cur.vt { mon := some (.store a l tag) } else s) := by
    split
    · exact keepsContexts_log _ _ _
    · exact .refl s
  have hwrite := hlog.trans (keepsContexts_writeBytes _ s.cur.vt a l)
  cases tag with
  | false => exact hwrite
  | true =>
    exact hwrite.trans (keepsContexts_updHere _
      (f := fun v => { v with im := { v.im with tags := Sparse.set v.im.tags (a / 16) true } }) (fun _ => rfl))

theorem keepsContexts_stores (s : State) (q : Nat) (w : List (Nat × List Byte)) :
    KeepsContexts s (w.foldl (fun t x => t.storeBy q x.1 x.2 false) s) := by
  induction w generalizing s with
  | nil => exact .refl s
  | cons x r ih => exact (keepsContexts_storeBy s q x.1 x.2 false).trans (ih _)

theorem keepsContexts_aheadEvent (s : State) (h : Ahead) : KeepsContexts s (s.aheadEvent h) := by
  unfold State.aheadEvent
  split
  · exact keepsContexts_updHere s (fun _ => rfl)
  · rename_i w r _ _
    exact (keepsContexts_stores s h.who w).trans (keepsContexts_updHere _ (f := fun t => { t with ahead := some { h with writes := r } })
      (fun _ => rfl))
  · exact .refl s

theorem keepsContexts_peerEvent (s : State) : KeepsContexts s s.peerEvent := by
  unfold State.peerEvent
  split
  · split
    · exact .refl s
    · rename_i h _ _
      have hlog : KeepsContexts s (if h.who = monitorCtx then s else s.log s.cur.vt { mon := some .peer }) := by
        split
        · exact .refl s
        · exact keepsContexts_log _ _ _
      exact hlog.trans (keepsContexts_aheadEvent _ h)
  · exact .refl s

/-- What comes about between the events of an access leaves the executing context but for its pumps (R74). -/
theorem State.raceEvent_butPumps (s : State) (e : Instr × EvArgs) : (s.raceEvent e).proc.butPumps = s.proc.butPumps := by
  unfold State.raceEvent
  split
  · rfl
  · split
    · split
      · rename_i h
        simp only [State.racesWith, Bool.and_eq_true, decide_eq_true_eq] at h
        exact h.1
      · rfl
    · rfl

theorem State.raceItem_butPumps (j : Nat) (s : State) (e : Option (Instr × EvArgs)) :
    (s.raceItem j e).proc.butPumps = s.proc.butPumps := by
  have hmark (t : State) :
      (if s.inMonitor then t else t.updHere (fun v => v.markParts s.here.log.length s.cur.who j)).proc = t.proc := by
    split
    · rfl
    · exact t.proc_updTile_of_im _ _ (fun _ => rfl)
  cases e with
  | none => exact (congrArg Proc.butPumps ((hmark _).trans (keepsContexts_peerEvent s).proc))
  | some x => exact (congrArg Proc.butPumps (hmark _)).trans (s.raceEvent_butPumps x)

/-- Outside a replay, what comes before a scalar access leaves the context that issues it but for its pumps (R74, log
entry 115). -/
theorem State.overtaken_butPumps (s : State) (i : Instr) (h : s.here.replay = none) :
    (s.overtaken i).proc.butPumps = s.proc.butPumps := by
  have hfold (l : List (Option (Instr × EvArgs))) (u : State) :
      (l.foldl (State.raceItem 0) u).proc.butPumps = u.proc.butPumps := by
    induction l generalizing u with
    | nil => rfl
    | cons x r ih => exact (ih _).trans (u.raceItem_butPumps 0 x)
  unfold State.overtaken
  split
  · simp only [State.raceNow, h]; exact hfold _ _
  · rfl

/-- Nothing comes before an instruction that is no scalar access, or that no vector access of its tc goes ahead of. -/
theorem State.overtaken_eq_self {s : State} {i : Instr} (h : s.accesses i = false ∨ s.peer = none) :
    s.overtaken i = s := by
  unfold State.overtaken
  rcases h with h | h <;> simp [h]

/-! The turn of the fabric. -/

/-- A fold whose every step leaves its start leaves it. -/
theorem foldl_eq_self {α β : Type} {f : α → β → α} {a : α} (h : ∀ b, f a b = a) (l : List β) : l.foldl f a = a :=
  List.foldlRecOn (motive := fun x => x = a) l f rfl (fun x hx b _ => by rw [hx, h b])

/-- Deadlines that have not passed change nothing (R46). -/
theorem State.expireAll_eq_self {s : State} (h : ∀ k q, s.mayExpire k q = false) : s.expireAll = s := by
  have hslot (k q : Nat) : s.expire k q = s := by simp [State.expire, h]
  have htile (k : Nat) : s.expireTile k = s := by
    unfold State.expireTile
    split
    · rfl
    · exact foldl_eq_self (hslot k) _
  exact foldl_eq_self htile _

/-- What agents outside the panel write stands in HBM, host memory or peer memory. -/
theorem State.outsideWrite_rest (s : State) (e : Nat × Byte) :
    (s.outsideWrite e).vts = s.vts ∧ (s.outsideWrite e).inputs = s.inputs := by
  unfold State.outsideWrite State.writeFar
  repeat' split
  all_goals exact ⟨rfl, rfl⟩

theorem State.outsideWrites_rest (s : State) (l : List (Nat × Byte)) :
    (s.outsideWrites l).vts = s.vts ∧ (s.outsideWrites l).inputs = s.inputs := by
  induction l generalizing s with
  | nil => exact ⟨rfl, rfl⟩
  | cons e r ih =>
    obtain ⟨hvts, hinputs⟩ := s.outsideWrite_rest e
    obtain ⟨hvts', hinputs'⟩ := ih (s.outsideWrite e)
    exact ⟨hvts'.trans hvts, hinputs'.trans hinputs⟩

theorem State.startEvent_inputs (s : State) (a : EvArgs) : (s.startEvent a).inputs = s.inputs.drop 1 :=
  (State.outsideWrites_rest { s.fabricTurn.expireAll with inputs := s.inputs.drop 1 } a.outside).2

theorem State.startEvent_of_noExpiry {s : State} (a : EvArgs) (h : ∀ k q, s.fabricTurn.mayExpire k q = false) :
    s.startEvent a
      = { State.outsideWrites { s.fabricTurn with inputs := s.inputs.drop 1 } a.outside with arg := a } := by
  rw [State.startEvent, State.expireAll_eq_self h]

theorem State.turnEvent_of_input {s : State} {i : Instr} {a : EvArgs} {l : List (Instr × EvArgs)}
    (hin : s.inputs = (i, a) :: l) (hi : isEvent i = true) : s.turnEvent = some (i, a) := by
  simp [State.turnEvent, State.nextInput, hin, hi]

theorem State.turnEvent_of_noInput {s : State} (hin : s.inputs = []) : s.turnEvent = s.chosen := by
  simp [State.turnEvent, hin]

/-- The instruction that the chosen context fetched is executed, behind what comes before its access (R29, R152, R74). -/
theorem step_of_decoded {s : State} {k q : Nat} {a : Bool} {i : Instr} (ht : s.task = .issue k a)
    (hq : (s.tile k).choose a = some q) (hi : decode ((s.tile k).fetch q) = .ok i) :
    step s = exec i ((s.startIssue k q a).overtaken i) := by
  rw [step_issue ht hq, VTile.instrAt_of_ok hi]

/-- The executing context is not at a scalar access when its issue is on the B pipe: no vector access is then ahead of it. -/
theorem State.startIssue_peer_bPipe (s : State) (k q : Nat) : (s.startIssue k q false).peer = none := by
  have hB : (s.startIssue k q false).here.issuedB = some q := by
    rw [State.here, State.startIssue_cur, State.startIssue_tile, if_pos rfl]
    unfold VTile.issued
    simp only [Bool.false_eq_true, if_false]
    split <;> rfl
  simp [State.peer, hB]

/-- A word that decodes to nothing raises ILLEGAL, and nothing comes before it (R152). -/
theorem step_of_undecoded {s : State} {k q : Nat} {a : Bool} {e : DecodeErr} (ht : s.task = .issue k a)
    (hq : (s.tile k).choose a = some q) (he : decode ((s.tile k).fetch q) = .error e) :
    step s = exec (.illegalEncoding ((s.tile k).fetch q)) (s.startIssue k q a) := by
  rw [step_issue ht hq, VTile.instrAt_of_error he, State.overtaken_eq_self (.inl rfl)]

theorem State.startIssue_replay (s : State) (k q : Nat) (a : Bool) :
    (s.startIssue k q a).here.replay = (s.tile k).replay := by
  have hlog : ((s.tile k).issueLogged q a s.time).replay = (s.tile k).replay := by
    unfold VTile.issueLogged VTile.logEntry
    repeat' split
    all_goals rfl
  have hissued (t : VTile) : (t.issued a q).replay = t.replay := by
    unfold VTile.issued
    cases a <;> simp only [Bool.false_eq_true, if_true, if_false] <;> split <;> rfl
  rw [State.here, State.startIssue_cur, State.startIssue_tile, if_pos rfl, hissued, hlog]

/-- Settles O54: a step is what its turn makes of it, by the equations of `step` for each turn; the booking of an issue changes
only ageing, and what comes before a scalar access only pumps; every step goes on because `exec` refuses nothing. -/
theorem stepRunsTheDecodedInstruction : Obligations.StepRunsTheDecodedInstruction := by
  refine ⟨?_, fun s k a => step_idle, ?_, ?_, ?_, fun s k => step_tcEnd, safe_all⟩
  · intro s k q a ht hq
    refine ⟨fun i hi => ⟨step_of_decoded ht hq hi, fun h => ?_, fun hreplay => ?_⟩, fun e he => step_of_undecoded ht hq he,
      VTile.toNat_fetch _, State.startIssue_cur s k q a, State.startIssue_turn s k q a, fun j hj => ?_,
      State.startIssue_procAt s k q a, State.startIssue_sameBytes s k q a⟩
    · have hself : (s.startIssue k q a).overtaken i = s.startIssue k q a := by
        rcases h with rfl | h | h
        · exact State.overtaken_eq_self (.inr (State.startIssue_peer_bPipe s k q))
        · exact State.overtaken_eq_self (.inl h)
        · exact State.overtaken_eq_self (.inr h)
      rw [step_of_decoded ht hq hi, hself]
    · exact State.overtaken_butPumps _ i ((State.startIssue_replay s k q a).trans hreplay)
    · rw [State.startIssue_tile, if_neg hj]
  · intro s i a l ht hin hi
    exact ⟨step_event ht (State.turnEvent_of_input hin hi), rfl, by rw [State.startEvent_inputs, hin]; rfl⟩
  · intro s ht hin
    have hchosen := State.turnEvent_of_noInput hin
    exact ⟨fun i a h => step_event ht (hchosen.trans h), fun h => step_noEvent ht (hchosen.trans h)⟩
  · intro s a h
    have hstart := State.startEvent_of_noExpiry a h
    refine ⟨hstart, ?_, fun hout => ?_⟩
    · rw [hstart]
      exact (State.outsideWrites_rest _ _).1
    · rw [hstart, hout]; rfl

end Sys2Proof.Machine
end

section
/-! The counterexample to O34: a refusal past the deadline, in an iteration of a rep that counts in the status register. -/

namespace Sys2Proof.Machine

/-- The refusal of the claim that the end 4 of vtile 0 has sent to the end 7 of vtile 1. -/
def refusedClaim : Msg := { src := ⟨1, 7⟩, dst := ⟨0, 4⟩, kind := .refusal }

/-- Slot 0 of vtile 0 waits on its end 4 past its deadline, in an iteration of a rep whose gc is also the status register g5;
the refusal of its claim is at hand. -/
def refusedUnderRep : State :=
  { vts := [(0, { im := {
      procs := [(0, { st := .blocked, wait := {
        kind := .channel, endIdx := 4, timed := true, deadline := 0, sReg := 5, rep := some 5 } })]
      ends := [(4, { st := .claimed, claiming := true, ov := true, pvt := 1, pend := 7 })] } })]
    parts := [(0, { regions := 1, v0 := true, state := 1, tiles := [0] })]
    msgs := [refusedClaim] }

theorem refusedUnderRep_taken : Rules.taken refusedUnderRep refusedClaim := by decide +kernel

theorem refusedUnderRep_peerStands : Rules.peerStands refusedUnderRep 0 4 :=
  ⟨by decide +kernel, by decide +kernel, by decide, by decide +kernel⟩

/-- The status TIMEOUT of the end 4 does not stand in g5 when the refusal has been applied: the count update of the rep has
replaced it. -/
theorem refusedUnderRep_status :
    (((refusedUnderRep.arrival .refusalArrives).procAt 0 0).rg 5) ≠ dataReg (statusWord stTimeout (some 4) 0) := by
  decide +kernel

/-- Refutes O34: the status TIMEOUT that a refusal past the deadline leaves in the status register is lost when the wait
stands under a rep whose gc is that register, since the count update (R197) is written after it. The statement bounds no
`rep` of the wait, which the statements of other completions require to be `none`. -/
theorem not_claimMessages : ¬ Obligations.ClaimMessages := by
  rintro ⟨-, hanswers⟩
  obtain ⟨-, hrefusal, -⟩ := hanswers _ _ refusedUnderRep_taken refusedUnderRep_peerStands
  obtain ⟨-, hlate⟩ := hrefusal rfl (by decide +kernel) (by decide +kernel) (by decide +kernel) (by decide +kernel)
    (by decide +kernel) (by decide +kernel) (by decide +kernel)
  obtain ⟨t, hexec, -, -, -, -, hstatus⟩ := hlate (by decide +kernel) (by decide +kernel) (by decide +kernel)
  obtain rfl : refusedUnderRep.arrival .refusalArrives = t := Host.Outcome.next.inj hexec
  exact refusedUnderRep_status hstatus

end Sys2Proof.Machine
end

section
/-! SUPPORT. The registers of BAR0 by their blocks, and what a write of one leaves of a block (R297 to R327). -/

namespace Sys2Proof.Machine

/-! Masks of register fields. -/

/-- A mask of the k lowest bits keeps the number modulo 2^k. -/
theorem toNat_and_lowBits (v : Word) {k : Nat} (hk : k ≤ 64) :
    (v &&& BitVec.ofNat 64 (2 ^ k - 1)).toNat = v.toNat % 2 ^ k := by
  have hpow : 2 ^ k ≤ 2 ^ 64 := Nat.pow_le_pow_right (by decide) hk
  have hpos := Nat.two_pow_pos k
  rw [BitVec.toNat_and, BitVec.toNat_ofNat, Nat.mod_eq_of_lt (by omega), Nat.and_two_pow_sub_one_eq_mod]

/-- An address field: the n lowest bits are zero. -/
theorem lowZero_eq_and (v : Word) (n : Nat) : lowZero v n = v &&& ~~~ BitVec.ofNat 64 (2 ^ n - 1) := by
  apply BitVec.eq_of_getLsbD_eq
  intro i hi
  have hle : v.toNat / 2 ^ n * 2 ^ n < 2 ^ 64 := Nat.lt_of_le_of_lt (Nat.div_mul_le_self _ _) v.isLt
  simp only [lowZero, BitVec.getLsbD_ofNat, BitVec.getLsbD_and, BitVec.getLsbD_not, Nat.testBit_mul_two_pow,
    Nat.testBit_div_two_pow, Nat.testBit_two_pow_sub_one, hi]
  by_cases h : n ≤ i
  · simp [h, Nat.sub_add_cancel h, BitVec.getLsbD]
  · simp [h, Nat.lt_of_not_le h]

/-- What a write of 4 or 8 bytes makes of a register (R304). -/
theorem halfWrite_eq_written (old : Word) (four : Bool) (hi : Nat) (v : Word) :
    halfWrite old four hi v = Rules.written old four hi v := by
  have hlow : (0xFFFFFFFF : Word) = BitVec.ofNat 64 (2 ^ 32 - 1) := rfl
  have hcast : ((0xFFFFFFFF : Nat) : Word) = BitVec.ofNat 64 (2 ^ 32 - 1) := rfl
  have hhigh : (0xFFFFFFFF00000000 : Word) = ~~~ BitVec.ofNat 64 (2 ^ 32 - 1) := by decide
  cases four
  · rfl
  · simp only [halfWrite, Rules.written, Bool.not_true, Bool.false_eq_true, if_false, if_true]
    split
    · apply BitVec.eq_of_getLsbD_eq
      intro i hi
      rw [hhigh, hlow]
      simp only [BitVec.getLsbD_append, BitVec.getLsbD_or, BitVec.getLsbD_and, BitVec.getLsbD_not, BitVec.getLsbD_ofNat,
        Nat.testBit_two_pow_sub_one, BitVec.getLsbD_extractLsb', hi]
      by_cases h : i < 32
      · simp [h]
      · simp [h, show 32 + (i - 32) = i by omega, show i - 32 < 32 by omega]
    · apply BitVec.eq_of_getLsbD_eq
      intro i hi
      rw [hcast]
      simp only [BitVec.getLsbD_append, BitVec.getLsbD_or, BitVec.getLsbD_and, BitVec.getLsbD_ofNat,
        Nat.testBit_two_pow_sub_one, BitVec.getLsbD_extractLsb', BitVec.getLsbD_shiftLeft, hi]
      by_cases h : i < 32
      · simp [h]
      · simp [h, show i - 32 < 32 by omega]

/-! The registers of BAR0 by their blocks. -/

/-- The registers of bring-up, time and resets that hold what is written, with their RW fields (R297, R305, R307). -/
def upFields : List (Nat × Word) :=
  [(0x10, ~~~0x3F), (0x18, 0xFFFFFFFF), (0x40, 3), (0x48, BitVec.allOnes 64), (0x60, 0x3F), (0x70, 0x3F)]

/-- Those of a queue block, by their offset in it (R308). -/
def queueFields : List (Nat × Word) :=
  [(0x00, ~~~0x3F), (0x08, ~~~0xF), (0x10, 0x1FFFFFFFF), (0x28, 0xFFFFFFFF), (0x30, ~~~0x3F), (0x38, ~~~0x3F),
    (0x48, BitVec.allOnes 64)]

/-- Those of partition change and receipts, from 0x400000 on (R317, R325). -/
def tenFields : List (Nat × Word) :=
  [(0x1000, 0xFFFFFFFFFFFF), (0x1008, 0xFFFF), (0x1010, ~~~0x3F), (0x1018, BitVec.allOnes 64),
    (0x2008, BitVec.allOnes 64)]

/-- Those of reliability, from 0x800000 on (R327). -/
def relFields : List (Nat × Word) :=
  [(0x00, BitVec.allOnes 64), (0x08, 0xFFFFFFFF), (0x10, BitVec.allOnes 64), (0x18, 0xFFFFFFFF0000FF01),
    (0x20, 0xFFFFFFFF), (0x28, ~~~0x3F), (0x30, 0x1F), (0x40, 0xFFFFFFFF)]

/-- A register of BAR0 by the block in which it stands. -/
inductive BarRegister
  | up (o : Nat)
  | queue (q r : Nat)
  | window
  | ten (r : Nat)
  | rel (r : Nat)

/-- Its offset in BAR0 (R303). -/
def BarRegister.offset : BarRegister → Nat
  | .up o => o
  | .queue q r => 0x10000 + 256 * q + r
  | .window => 0x200000
  | .ten r => 0x400000 + r
  | .rel r => 0x800000 + r

/-- It holds what is written to these RW fields. -/
def BarRegister.Holds : BarRegister → Word → Prop
  | .up o, m => (o, m) ∈ upFields
  | .queue q r, m => q < 48 ∧ (r, m) ∈ queueFields
  | .window, m => m = 0x0FFFFFFF
  | .ten r, m => (r, m) ∈ tenFields
  | .rel r, m => (r, m) ∈ relFields

/-- The registers of a queue block, by their offset in it (R308). -/
theorem queueRegisters_eq (q : Nat) :
    [(0x10000 + 256 * q, (~~~0x3F : Word)), (0x10008 + 256 * q, ~~~0xF), (0x10010 + 256 * q, 0x1FFFFFFFF),
      (0x10028 + 256 * q, 0xFFFFFFFF), (0x10030 + 256 * q, ~~~0x3F), (0x10038 + 256 * q, ~~~0x3F),
      (0x10048 + 256 * q, BitVec.allOnes 64)]
      = queueFields.map (fun x => (0x10000 + 256 * q + x.1, x.2)) := by
  simp only [queueFields, List.map_cons, List.map_nil, List.cons.injEq, Prod.mk.injEq, and_true]
  omega

theorem registers_eq : Rules.registers
    = upFields ++ (List.range 48).flatMap (fun q => queueFields.map (fun x => (0x10000 + 256 * q + x.1, x.2)))
      ++ (0x200000, 0x0FFFFFFF) :: (tenFields.map (fun x => (0x400000 + x.1, x.2))
        ++ relFields.map (fun x => (0x800000 + x.1, x.2))) := by
  rw [Rules.registers]
  simp only [queueRegisters_eq]
  rfl

theorem BarRegister.exists_of_mem {o : Nat} {m : Word} (h : (o, m) ∈ Rules.registers) :
    ∃ p : BarRegister, p.offset = o ∧ p.Holds m := by
  simp only [registers_eq, List.mem_append, List.mem_cons, List.mem_flatMap, List.mem_map, List.mem_range,
    Prod.mk.injEq, Prod.exists] at h
  rcases h with (h | ⟨q, hq, r, n, hr, rfl, rfl⟩) | ⟨rfl, rfl⟩ | ⟨r, n, hr, rfl, rfl⟩ | ⟨r, n, hr, rfl, rfl⟩
  · exact ⟨.up o, rfl, h⟩
  · exact ⟨.queue q r, rfl, hq, hr⟩
  · exact ⟨.window, rfl, rfl⟩
  · exact ⟨.ten r, rfl, hr⟩
  · exact ⟨.rel r, rfl, hr⟩

theorem upFields_spec {o : Nat} {m : Word} (h : (o, m) ∈ upFields) :
    o % 8 = 0 ∧ o < 0x1000 ∧ o ≠ 0x20 ∧ o ≠ 0x50 :=
  (by decide : ∀ x ∈ upFields, x.1 % 8 = 0 ∧ x.1 < 0x1000 ∧ x.1 ≠ 0x20 ∧ x.1 ≠ 0x50) (o, m) h

theorem queueFields_spec {r : Nat} {m : Word} (h : (r, m) ∈ queueFields) : r % 8 = 0 ∧ r < 256 ∧ r ≠ 0x50 :=
  (by decide : ∀ x ∈ queueFields, x.1 % 8 = 0 ∧ x.1 < 256 ∧ x.1 ≠ 0x50) (r, m) h

theorem tenFields_spec {r : Nat} {m : Word} (h : (r, m) ∈ tenFields) : r % 8 = 0 ∧ r < 0x4000 :=
  (by decide : ∀ x ∈ tenFields, x.1 % 8 = 0 ∧ x.1 < 0x4000) (r, m) h

theorem relFields_spec {r : Nat} {m : Word} (h : (r, m) ∈ relFields) : r % 8 = 0 ∧ r < 0x1000 :=
  (by decide : ∀ x ∈ relFields, x.1 % 8 = 0 ∧ x.1 < 0x1000) (r, m) h

/-- A register is aligned, and neither of those whose kept half is not what is read (R304). -/
theorem BarRegister.offset_spec {p : BarRegister} {m : Word} (h : p.Holds m) :
    p.offset % 8 = 0 ∧ p.offset ≠ 0x200008 ∧ p.offset ≠ 0x50 := by
  cases p with
  | up o =>
    have := upFields_spec h
    simp only [BarRegister.offset]
    omega
  | queue q r =>
    have := queueFields_spec h.2
    have := h.1
    simp only [BarRegister.offset]
    omega
  | window => decide
  | ten r =>
    have := tenFields_spec h
    simp only [BarRegister.offset]
    omega
  | rel r =>
    have := relFields_spec h
    simp only [BarRegister.offset]
    omega

/-! A queue block. -/

theorem QBlock.setBase_zero (b : QBlock) (v : Word) :
    b.setBase 0 v = { b with fqbase0 := if b.ringEmpty 0 then lowZero v 6 else b.fqbase0 } := by
  cases h : b.ringEmpty 0 <;> simp [QBlock.setBase, h]

theorem QBlock.setBase_one (b : QBlock) (v : Word) :
    b.setBase 1 v = { b with fqbase1 := if b.ringEmpty 1 then lowZero v 6 else b.fqbase1 } := by
  cases h : b.ringEmpty 1 <;> simp [QBlock.setBase, h]

theorem QBlock.setSize_zero (b : QBlock) (v : BitVec 8) :
    b.setSize 0 v = { b with fqsize0 := if b.ringEmpty 0 then v else b.fqsize0 } := by
  cases h : b.ringEmpty 0 <;> simp [QBlock.setSize, h]

theorem QBlock.setSize_one (b : QBlock) (v : BitVec 8) :
    b.setSize 1 v = { b with fqsize1 := if b.ringEmpty 1 then v else b.fqsize1 } := by
  cases h : b.ringEmpty 1 <;> simp [QBlock.setSize, h]

/-- A write of qcfg changes the size of the queue, those of its empty rings, and while the queue is idle its enable. -/
theorem QBlock.setCfg_eq (b : QBlock) (v : Word) :
    b.setCfg v = { b with
      qsize := v.setWidth 16
      fqsize0 := if b.ringEmpty 0 then v.extractLsb' 16 8 else b.fqsize0
      fqsize1 := if b.ringEmpty 1 then v.extractLsb' 24 8 else b.fqsize1
      en := if b.idle then v.getLsbD 32 else b.en } := by
  simp only [QBlock.setCfg, QBlock.setSize_zero, QBlock.setSize_one]
  rfl

theorem QBlock.setHead_both (b : QBlock) (v : Word) :
    (b.setHead 0 (v.setWidth 32)).setHead 1 (v.extractLsb' 32 32)
      = { b with fqhd0 := v.setWidth 32, fqhd1 := v.extractLsb' 32 32 } := rfl

theorem toNat_getLsbD (v : Word) (i : Nat) : (if v.getLsbD i then 1 else 0) = v.toNat / 2 ^ i % 2 := by
  rw [BitVec.getLsbD, Nat.testBit_eq_decide_div_mod_eq]
  rcases Nat.mod_two_eq_zero_or_one (v.toNat / 2 ^ i) with h | h <;> simp [h]

/-- What qcfg shows after a write while the queue is idle and its rings are empty. -/
theorem QBlock.reg_cfg {b : QBlock} {v : Word} (hidle : b.idle = true) (h0 : b.ringEmpty 0 = true)
    (h1 : b.ringEmpty 1 = true) : (b.setCfg v).reg 0x10 = v &&& 0x1FFFFFFFF := by
  apply BitVec.eq_of_toNat_eq
  rw [show (0x1FFFFFFFF : Word) = BitVec.ofNat 64 (2 ^ 33 - 1) by rfl, toNat_and_lowBits v (by decide)]
  have hbit := toNat_getLsbD v 32
  simp only [QBlock.setCfg_eq, QBlock.reg, hidle, h0, h1, if_true, BitVec.toNat_ofNat, BitVec.toNat_setWidth,
    BitVec.extractLsb'_toNat, Nat.shiftRight_eq_div_pow]
  split at hbit <;> simp only [*, if_true, if_false, Bool.false_eq_true] <;> omega

theorem setWidth_eq_and (v : Word) {k : Nat} (hk : k ≤ 64) :
    (v.setWidth k).setWidth 64 = v &&& BitVec.ofNat 64 (2 ^ k - 1) := by
  apply BitVec.eq_of_toNat_eq
  have hlt : v.toNat % 2 ^ k < 2 ^ 64 := Nat.lt_of_le_of_lt (Nat.mod_le _ _) v.isLt
  rw [toNat_and_lowBits v hk, BitVec.toNat_setWidth, BitVec.toNat_setWidth, Nat.mod_eq_of_lt hlt]

theorem append_halves (v : Word) : (v.extractLsb' 32 32 ++ (v.setWidth 32 : BitVec 32) : BitVec 64) = v := by
  apply BitVec.eq_of_toNat_eq
  rw [BitVec.toNat_append, BitVec.extractLsb'_toNat, BitVec.toNat_setWidth, Nat.shiftRight_eq_div_pow,
    ← Nat.shiftLeft_add_eq_or_of_lt (Nat.mod_lt _ (by decide)), Nat.shiftLeft_eq]
  have := v.isLt
  omega

theorem QBlock.reg_write_same {b : QBlock} {r : Nat} {m v : Word} (h : (r, m) ∈ queueFields)
    (hcfg : r = 0x10 → b.idle = true ∧ b.ringEmpty 0 = true ∧ b.ringEmpty 1 = true)
    (hbase0 : r = 0x30 → b.ringEmpty 0 = true) (hbase1 : r = 0x38 → b.ringEmpty 1 = true) :
    (b.write r v).reg r = v &&& m := by
  simp only [queueFields, List.mem_cons, List.not_mem_nil, or_false, Prod.mk.injEq] at h
  rcases h with ⟨rfl, rfl⟩ | ⟨rfl, rfl⟩ | ⟨rfl, rfl⟩ | ⟨rfl, rfl⟩ | ⟨rfl, rfl⟩ | ⟨rfl, rfl⟩ | ⟨rfl, rfl⟩
  · exact lowZero_eq_and v 6
  · exact lowZero_eq_and v 4
  · obtain ⟨hidle, h0, h1⟩ := hcfg rfl
    exact QBlock.reg_cfg hidle h0 h1
  · exact setWidth_eq_and v (by decide)
  · simp only [QBlock.write, QBlock.setBase_zero, hbase0 rfl, if_true, QBlock.reg]
    exact lowZero_eq_and v 6
  · simp only [QBlock.write, QBlock.setBase_one, hbase1 rfl, if_true, QBlock.reg]
    exact lowZero_eq_and v 6
  · rw [show b.write 0x48 v = _ from QBlock.setHead_both b v, BitVec.and_allOnes]
    exact (append_halves v)

/-- A write of one register of a queue block leaves the others. -/
theorem QBlock.reg_write_other {b : QBlock} {r r' : Nat} {m m' v : Word} (h : (r, m) ∈ queueFields)
    (h' : (r', m') ∈ queueFields) (hne : r' ≠ r) : (b.write r v).reg r' = b.reg r' := by
  simp only [queueFields, List.mem_cons, List.not_mem_nil, or_false, Prod.mk.injEq] at h h'
  rcases h with ⟨rfl, -⟩ | ⟨rfl, -⟩ | ⟨rfl, -⟩ | ⟨rfl, -⟩ | ⟨rfl, -⟩ | ⟨rfl, -⟩ | ⟨rfl, -⟩
  all_goals
    simp only [QBlock.write, QBlock.setCfg_eq, QBlock.setBase_zero, QBlock.setBase_one, QBlock.setHead_both]
    rcases h' with ⟨rfl, -⟩ | ⟨rfl, -⟩ | ⟨rfl, -⟩ | ⟨rfl, -⟩ | ⟨rfl, -⟩ | ⟨rfl, -⟩ | ⟨rfl, -⟩
    all_goals simp [QBlock.reg] at hne ⊢

/-! Bring-up, time and resets. -/

/-- The bring-up registers after a write that starts no reset and no reload (R297, R305, R307). -/
def BringUp.store (u : BringUp) (o : Nat) (v : Word) : BringUp :=
  match o with
  | 0x60 => { u with rgregion := v.setWidth 6 }
  | 0x70 => { u with mrregion := v.setWidth 6 }
  | o => u.write o v

theorem State.upReg_store_same (s : State) {o : Nat} {m v : Word} (h : (o, m) ∈ upFields) :
    (s.updUp (fun u => u.store o v)).upReg o = v &&& m := by
  simp only [upFields, List.mem_cons, List.not_mem_nil, or_false, Prod.mk.injEq] at h
  rcases h with ⟨rfl, rfl⟩ | ⟨rfl, rfl⟩ | ⟨rfl, rfl⟩ | ⟨rfl, rfl⟩ | ⟨rfl, rfl⟩ | ⟨rfl, rfl⟩
  · exact lowZero_eq_and v 6
  · exact setWidth_eq_and v (k := 32) (by decide)
  · exact setWidth_eq_and v (k := 2) (by decide)
  · exact BitVec.and_allOnes.symm
  · exact setWidth_eq_and v (k := 6) (by decide)
  · exact setWidth_eq_and v (k := 6) (by decide)

theorem State.upReg_store_other (s : State) {o o' : Nat} {m m' v : Word} (h : (o, m) ∈ upFields) (h' : (o', m') ∈ upFields)
    (hne : o' ≠ o) : (s.updUp (fun u => u.store o v)).upReg o' = s.upReg o' := by
  simp only [upFields, List.mem_cons, List.not_mem_nil, or_false, Prod.mk.injEq] at h h'
  rcases h with ⟨rfl, -⟩ | ⟨rfl, -⟩ | ⟨rfl, -⟩ | ⟨rfl, -⟩ | ⟨rfl, -⟩ | ⟨rfl, -⟩
  all_goals
    rcases h' with ⟨rfl, -⟩ | ⟨rfl, -⟩ | ⟨rfl, -⟩ | ⟨rfl, -⟩ | ⟨rfl, -⟩ | ⟨rfl, -⟩
    all_goals simp [State.upReg, State.updUp, BringUp.store, BringUp.write] at hne ⊢

/-! Partition change and receipts. -/

/-- The registers of a partition change and of receipts after a write that starts no operation (R317, R325). -/
def Tenancy.store (t : Tenancy) (r : Nat) (v : Word) : Tenancy :=
  match r with
  | 0x1000 => { t with pcregions := v.setWidth 48 }
  | 0x1008 => t.setPcop v
  | 0x1010 => { t with pcflb := lowZero v 6 }
  | 0x1018 => { t with pcfll := v }
  | 0x2008 => { t with rsel := v }
  | _ => t

theorem State.writeTen_eq_store {s : State} {r : Nat} {m v : Word} (h : (r, m) ∈ tenFields)
    (hch : r < 0x2000 → s.ten.changing = false) (hgo : r = 0x1008 → v.getLsbD 16 = false) :
    s.writeTen r v = s.updTen (fun t => t.store r v) := by
  simp only [tenFields, List.mem_cons, List.not_mem_nil, or_false, Prod.mk.injEq] at h
  rcases h with ⟨rfl, -⟩ | ⟨rfl, -⟩ | ⟨rfl, -⟩ | ⟨rfl, -⟩ | ⟨rfl, -⟩
  case inr.inl => simp only [State.writeTen, hch (by decide), State.writePcop, hgo rfl]; rfl
  all_goals simp [State.writeTen, hch, Tenancy.store]

/-- pcop (R317). -/
theorem State.tenReg_pcop_eq (s : State) : s.tenReg 0x1008 = BitVec.ofNat 64 (s.ten.pcop.toNat
    + (if s.ten.pcdual then 4 else 0) + s.ten.pctenant.toNat * 8 + (if s.ten.pckeep then 128 else 0)
    + s.ten.pcpart.toNat * 256) := by
  simp [State.tenReg]

/-- What pcop shows after a write (R317). -/
theorem State.tenReg_pcop (s : State) (v : Word) : (s.updTen (fun t => t.setPcop v)).tenReg 0x1008 = v &&& 0xFFFF := by
  apply BitVec.eq_of_toNat_eq
  rw [show (0xFFFF : Word) = BitVec.ofNat 64 (2 ^ 16 - 1) by rfl, toNat_and_lowBits v (by decide)]
  have hdual := toNat_getLsbD v 2
  have hkeep := toNat_getLsbD v 7
  simp only [State.tenReg_pcop_eq, State.updTen, Tenancy.setPcop, BitVec.toNat_ofNat, BitVec.toNat_setWidth,
    BitVec.extractLsb'_toNat, Nat.shiftRight_eq_div_pow]
  split at hdual <;> split at hkeep <;> simp only [*, if_true, if_false, Bool.false_eq_true] <;> omega

theorem State.tenReg_store_same (s : State) {r : Nat} {m v : Word} (h : (r, m) ∈ tenFields) :
    (s.updTen (fun t => t.store r v)).tenReg r = v &&& m := by
  simp only [tenFields, List.mem_cons, List.not_mem_nil, or_false, Prod.mk.injEq] at h
  rcases h with ⟨rfl, rfl⟩ | ⟨rfl, rfl⟩ | ⟨rfl, rfl⟩ | ⟨rfl, rfl⟩ | ⟨rfl, rfl⟩
  · exact setWidth_eq_and v (k := 48) (by decide)
  · exact s.tenReg_pcop v
  · exact lowZero_eq_and v 6
  · exact BitVec.and_allOnes.symm
  · exact BitVec.and_allOnes.symm

theorem State.tenReg_store_other (s : State) {r r' : Nat} {m m' v : Word} (h : (r, m) ∈ tenFields)
    (h' : (r', m') ∈ tenFields) (hne : r' ≠ r) : (s.updTen (fun t => t.store r v)).tenReg r' = s.tenReg r' := by
  simp only [tenFields, List.mem_cons, List.not_mem_nil, or_false, Prod.mk.injEq] at h h'
  rcases h with ⟨rfl, -⟩ | ⟨rfl, -⟩ | ⟨rfl, -⟩ | ⟨rfl, -⟩ | ⟨rfl, -⟩
  all_goals
    rcases h' with ⟨rfl, -⟩ | ⟨rfl, -⟩ | ⟨rfl, -⟩ | ⟨rfl, -⟩ | ⟨rfl, -⟩
    all_goals simp [State.tenReg, State.updTen, Tenancy.store, Tenancy.setPcop] at hne ⊢

theorem Tenancy.windowReg_store (t : Tenancy) (r : Nat) (v : Word) (o : Nat) : (t.store r v).windowReg o = t.windowReg o := by
  unfold Tenancy.store
  split <;> rfl

/-- What twin shows after a write (R313). -/
theorem Tenancy.windowReg_writeWindow (t : Tenancy) (v : Word) : (t.writeWindow 0 v).windowReg 0 = v &&& 0x0FFFFFFF := by
  apply BitVec.eq_of_toNat_eq
  rw [show (0x0FFFFFFF : Word) = BitVec.ofNat 64 (2 ^ 28 - 1) by rfl, toNat_and_lowBits v (by decide)]
  simp only [Tenancy.windowReg, Tenancy.writeWindow, BitVec.toNat_ofNat, BitVec.toNat_setWidth, BitVec.extractLsb'_toNat,
    Nat.shiftRight_eq_div_pow]
  omega

theorem State.tenReg_writeWindow (s : State) (v : Word) {r : Nat} {m : Word} (h : (r, m) ∈ tenFields) :
    (s.updTen (fun t => t.writeWindow 0 v)).tenReg r = s.tenReg r := by
  simp only [tenFields, List.mem_cons, List.not_mem_nil, or_false, Prod.mk.injEq] at h
  rcases h with ⟨rfl, -⟩ | ⟨rfl, -⟩ | ⟨rfl, -⟩ | ⟨rfl, -⟩ | ⟨rfl, -⟩
  all_goals simp [State.tenReg, State.updTen, Tenancy.writeWindow]

/-! Reliability. -/

/-- The fields of retpol, bit by bit: its lower half is ce in bits 8 to 15 and scr in bit 0 (R327). -/
theorem getLsbD_retpolLow (v : Word) (i : Nat) :
    (BitVec.ofNat 32 ((v.extractLsb' 8 8).toNat * 256 + (if v.getLsbD 0 then 1 else 0))).getLsbD i
      = (v.getLsbD i && (decide (8 ≤ i) && decide (i < 16) || decide (i = 0))) := by
  have hsmall : (v.getLsbD 0).toNat < 2 ^ 8 := Nat.lt_of_lt_of_le (Bool.toNat_lt _) (by decide)
  rw [BitVec.getLsbD_ofNat, Nat.mul_comm, show 256 = 2 ^ 8 from rfl,
    show (if v.getLsbD 0 then 1 else 0) = (v.getLsbD 0).toNat by cases v.getLsbD 0 <;> rfl,
    Nat.testBit_two_pow_mul_add _ hsmall, Nat.testBit_bool_toNat]
  by_cases h8 : i < 8
  · by_cases hz : i = 0 <;> simp [hz, h8, Nat.not_le_of_lt h8, show i < 32 by omega]
  · rw [if_neg h8, ← BitVec.getLsbD, BitVec.getLsbD_extractLsb']
    by_cases h16 : i < 16
    · simp [h16, show i - 8 < 8 by omega, show 8 + (i - 8) = i by omega, show i < 32 by omega, Nat.le_of_not_lt h8]
    · simp [h16, show ¬ i - 8 < 8 by omega, show i ≠ 0 by omega]

/-- What retpol shows after a write (R327). -/
theorem Reliability.reg_retpol (r : Reliability) (v : Word) :
    (r.write 0x18 v).reg 0x18 = v &&& 0xFFFFFFFF0000FF01 := by
  apply BitVec.eq_of_getLsbD_eq
  intro i hi
  have hmask : (0xFFFFFFFF0000FF01 : Word).getLsbD i
      = (decide (32 ≤ i) || (decide (8 ≤ i) && decide (i < 16) || decide (i = 0))) := by
    decide +revert
  rw [BitVec.getLsbD_and, hmask]
  simp only [Reliability.reg, Reliability.write, BitVec.getLsbD_append, getLsbD_retpolLow]
  by_cases h : i < 32
  · simp [h, Nat.not_le_of_lt h]
  · simp [h, show 32 + (i - 32) = i by omega, show i - 32 < 32 by omega, Nat.le_of_not_lt h]

theorem Reliability.reg_policy (r : Reliability) (v : Word) : (r.write 0x30 v).reg 0x30 = v &&& 0x1F := by
  apply BitVec.eq_of_toNat_eq
  rw [show (0x1F : Word) = BitVec.ofNat 64 (2 ^ 5 - 1) by rfl, toNat_and_lowBits v (by decide)]
  have hen := toNat_getLsbD v 4
  simp only [Reliability.reg, Reliability.write, BitVec.toNat_ofNat, BitVec.toNat_setWidth]
  split at hen <;> simp only [*, if_true, if_false, Bool.false_eq_true] <;> omega

theorem Reliability.reg_write_same (l : Reliability) {r : Nat} {m v : Word} (h : (r, m) ∈ relFields) :
    (l.write r v).reg r = v &&& m := by
  simp only [relFields, List.mem_cons, List.not_mem_nil, or_false, Prod.mk.injEq] at h
  rcases h with ⟨rfl, rfl⟩ | ⟨rfl, rfl⟩ | ⟨rfl, rfl⟩ | ⟨rfl, rfl⟩ | ⟨rfl, rfl⟩ | ⟨rfl, rfl⟩ | ⟨rfl, rfl⟩ | ⟨rfl, rfl⟩
  · exact BitVec.and_allOnes.symm
  · exact setWidth_eq_and v (k := 32) (by decide)
  · exact BitVec.and_allOnes.symm
  · exact l.reg_retpol v
  · exact setWidth_eq_and v (k := 32) (by decide)
  · exact lowZero_eq_and v 6
  · exact l.reg_policy v
  · exact setWidth_eq_and v (k := 32) (by decide)

theorem Reliability.reg_write_other (l : Reliability) {r r' : Nat} {m m' v : Word} (h : (r, m) ∈ relFields)
    (h' : (r', m') ∈ relFields) (hne : r' ≠ r) : (l.write r v).reg r' = l.reg r' := by
  simp only [relFields, List.mem_cons, List.not_mem_nil, or_false, Prod.mk.injEq] at h h'
  rcases h with ⟨rfl, -⟩ | ⟨rfl, -⟩ | ⟨rfl, -⟩ | ⟨rfl, -⟩ | ⟨rfl, -⟩ | ⟨rfl, -⟩ | ⟨rfl, -⟩ | ⟨rfl, -⟩
  all_goals
    rcases h' with ⟨rfl, -⟩ | ⟨rfl, -⟩ | ⟨rfl, -⟩ | ⟨rfl, -⟩ | ⟨rfl, -⟩ | ⟨rfl, -⟩ | ⟨rfl, -⟩ | ⟨rfl, -⟩
    all_goals simp [Reliability.reg, Reliability.write] at hne ⊢

end Sys2Proof.Machine
end

section
/-! SUPPORT. What the host reads and writes over BAR0 (R303 to R305): the register at an offset, and the states that show the same. -/

namespace Sys2Proof.Machine

/-! What the host sees of a register. -/

/-- The host sees the register at an offset: over the link, out of D3hot, and in step 1 of bring-up only those of R297
(R298, log entry 102). -/
def BringUp.shows (u : BringUp) (o : Nat) : Bool :=
  !u.reset && u.hostLink && !u.d3 && (decide (o < 0x30) || decide (u.phase ≠ 1))

theorem BringUp.shows_store (u : BringUp) (o : Nat) (v : Word) : (u.store o v).shows = u.shows := by
  unfold BringUp.store BringUp.write
  repeat' split
  all_goals rfl

theorem State.barOpen_of_shows {s : State} {o : Nat} (h : s.up.shows o = true) (ho : ¬ o < 0x30) : s.barOpen = true := by
  simp_all [BringUp.shows, State.barOpen, State.hostReaches]

theorem State.reaches_of_shows {s : State} {o : Nat} (h : s.up.shows o = true) :
    (!s.hostReaches || s.up.d3) = false := by
  simp_all [BringUp.shows, State.hostReaches]

/-- What a register of BAR0 holds. -/
def State.shown (s : State) : BarRegister → Word
  | .up o => s.upReg o
  | .queue q r => (Sparse.get s.queues q).reg r
  | .window => s.ten.windowReg 0
  | .ten r => s.tenReg r
  | .rel r => s.rel.reg r

theorem State.bar0_of_not_shows {s : State} {o : Nat} (h : s.up.shows o = false) : s.bar0 o = 0 := by
  by_cases hreach : (!s.hostReaches || s.up.d3) = true
  · exact if_pos hreach
  · have hclosed : ¬ o < 0x30 ∧ s.barOpen = false := by
      simp_all [BringUp.shows, State.hostReaches, State.barOpen]
    rw [State.bar0, if_neg hreach, if_neg hclosed.1, hclosed.2]
    rfl

/-- A read of BAR0 gives what the register holds (R303). -/
theorem State.bar0_offset {s : State} {p : BarRegister} {m : Word} (hp : p.Holds m) (h : s.up.shows p.offset = true) :
    s.bar0 p.offset = s.shown p := by
  have hreach : ¬ (!s.hostReaches || s.up.d3) = true := by simp [State.reaches_of_shows h]
  by_cases hlow : p.offset < 0x30
  · rw [State.bar0, if_neg hreach, if_pos hlow]
    cases p with
    | up o => rfl
    | queue | window | ten | rel => simp only [BarRegister.offset] at hlow; omega
  · have hopen : ¬ (!s.barOpen) = true := by simp [State.barOpen_of_shows h hlow]
    rw [State.bar0, if_neg hreach, if_neg hlow, if_neg hopen]
    clear h hlow
    cases p with
    | up o =>
      obtain ⟨-, hlt, -⟩ := upFields_spec hp
      exact if_pos hlt
    | queue q r =>
      have hq : q < 48 := hp.1
      obtain ⟨-, hlt, -⟩ := queueFields_spec hp.2
      rw [show (BarRegister.queue q r).offset = 0x10000 + 256 * q + r from rfl]
      simp (disch := omega) only [State.shown, if_pos, if_neg]
      rw [show (0x10000 + 256 * q + r - 0x10000) / 256 = q by omega, show (0x10000 + 256 * q + r) % 256 = r by omega]
    | window => rfl
    | ten r =>
      obtain ⟨-, hlt⟩ := tenFields_spec hp
      simp (disch := omega) only [BarRegister.offset, State.shown, if_pos, if_neg, Nat.add_sub_cancel_left]
    | rel r =>
      obtain ⟨-, hlt⟩ := relFields_spec hp
      simp (disch := omega) only [BarRegister.offset, State.shown, if_pos, if_neg, Nat.add_sub_cancel_left]

theorem State.readReg_offset (s : State) {p : BarRegister} {m : Word} (hp : p.Holds m) :
    s.readReg .pf p.offset = if s.up.shows p.offset then s.shown p else 0 := by
  change s.bar0 p.offset = _
  split
  · exact State.bar0_offset hp ‹_›
  · exact State.bar0_of_not_shows (Bool.eq_false_iff.mpr ‹_›)

/-! States that differ in no register. -/

/-- The registers that hold what is written, the vtiles and the memories are those of another state. -/
structure SameShown (s t : State) : Prop where
  shows : t.up.shows = s.up.shows
  shown : ∀ p m, BarRegister.Holds p m → t.shown p = s.shown p
  vts : t.vts = s.vts
  hbm : t.hbm = s.hbm
  hostMem : t.hostMem = s.hostMem

theorem SameShown.refl (s : State) : SameShown s s := ⟨rfl, fun _ _ _ => rfl, rfl, rfl, rfl⟩

theorem SameShown.trans {s t u : State} (h : SameShown s t) (h' : SameShown t u) : SameShown s u where
  shows := h'.shows.trans h.shows
  shown p m hp := (h'.shown p m hp).trans (h.shown p m hp)
  vts := h'.vts.trans h.vts
  hbm := h'.hbm.trans h.hbm
  hostMem := h'.hostMem.trans h.hostMem

/-- The bring-up registers depend on bring-up alone. -/
theorem State.upReg_congr {s t : State} (h : t.up = s.up) (o : Nat) : t.upReg o = s.upReg o := by
  simp only [State.upReg, h]

/-- The registers of a partition change that are written depend on tenancy alone. -/
theorem State.tenReg_congr {s t : State} (h : t.ten = s.ten) {r : Nat} {m : Word} (hr : (r, m) ∈ tenFields) :
    t.tenReg r = s.tenReg r := by
  simp only [tenFields, List.mem_cons, List.not_mem_nil, or_false, Prod.mk.injEq] at hr
  rcases hr with ⟨rfl, -⟩ | ⟨rfl, -⟩ | ⟨rfl, -⟩ | ⟨rfl, -⟩ | ⟨rfl, -⟩
  all_goals simp [State.tenReg, h]

/-- A state whose bring-up, tenancy and registers of queues and reliability are another's shows the same. -/
theorem SameShown.of_parts {s t : State} (hup : t.up = s.up) (hten : t.ten = s.ten)
    (hqueue : ∀ q r m, (r, m) ∈ queueFields → (Sparse.get t.queues q).reg r = (Sparse.get s.queues q).reg r)
    (hrel : t.rel.reg = s.rel.reg) (hvts : t.vts = s.vts) (hhbm : t.hbm = s.hbm) (hhost : t.hostMem = s.hostMem) :
    SameShown s t where
  shows := by rw [hup]
  shown p m hp := by
    cases p with
    | up o => exact State.upReg_congr hup o
    | queue q r => exact hqueue q r m hp.2
    | window => simp only [State.shown, hten]
    | ten r => exact State.tenReg_congr hten hp
    | rel r => exact congrFun hrel r
  vts := hvts
  hbm := hhbm
  hostMem := hhost

/-- A queue that fetches shows the same registers but its head. -/
theorem State.fetchQueue_sameShown (s : State) (q : Nat) : SameShown s (s.fetchQueue q) := by
  unfold State.fetchQueue
  dsimp only
  split
  · refine .of_parts rfl rfl (fun q' r m hr => ?_) rfl rfl rfl rfl
    by_cases hq : q' = q
    · subst hq
      simp only [State.updQueue, Sparse.get_upd_same]
      simp only [queueFields, List.mem_cons, List.not_mem_nil, or_false, Prod.mk.injEq] at hr
      rcases hr with ⟨rfl, -⟩ | ⟨rfl, -⟩ | ⟨rfl, -⟩ | ⟨rfl, -⟩ | ⟨rfl, -⟩ | ⟨rfl, -⟩ | ⟨rfl, -⟩
      all_goals simp only [QBlock.reg]
    · simp only [State.updQueue, Sparse.get_upd_other _ _ hq]
  · exact .refl s

/-- Health records are no register of these. -/
theorem State.updHealth_sameShown (s : State) (f : Health → Health) : SameShown s (s.updHealth f) :=
  .of_parts rfl rfl (fun _ _ _ _ => rfl) rfl rfl rfl rfl

theorem State.raiseVector_sameShown (s : State) (v : Nat × Nat) : SameShown s (s.raiseVector v) :=
  .of_parts rfl rfl (fun _ _ _ _ => rfl) rfl rfl rfl rfl

/-- What reliability keeps beside its registers may change. -/
theorem State.updRel_sameShown (s : State) {f : Reliability → Reliability} (h : (f s.rel).reg = s.rel.reg) :
    SameShown s (s.updRel f) :=
  .of_parts rfl rfl (fun _ _ _ _ => rfl) h rfl rfl rfl

theorem State.logRetirement_sameShown (s : State) (r : Retirement) : SameShown s (s.logRetirement r) :=
  .of_parts rfl rfl (fun _ _ _ _ => rfl) rfl rfl rfl rfl

theorem State.outOfUse_sameShown (s : State) (p : Nat) : SameShown s (s.outOfUse p) :=
  .of_parts rfl rfl (fun _ _ _ _ => rfl) rfl rfl rfl rfl

theorem State.abandonSteps_sameShown (s : State) (f : Rotation → Bool) : SameShown s (s.abandonSteps f) := by
  refine .of_parts rfl rfl (fun _ _ _ _ => rfl) ?_ rfl rfl rfl
  refine List.foldlRecOn (motive := fun (l : Reliability) => l.reg = s.rel.reg) _ _ rfl (fun l hl e _ => ?_)
  split
  · split
    · exact hl
    · exact hl
  · exact hl

theorem State.retire_sameShown (s : State) (r : Retirement) : SameShown s (s.retire r) := by
  unfold State.retire
  dsimp only
  split
  · exact .refl s
  · split
    · exact (State.updRel_sameShown _ rfl).trans (State.logRetirement_sameShown _ _)
    · exact ((State.abandonSteps_sameShown _ _).trans (State.outOfUse_sameShown _ _)).trans
        (State.logRetirement_sameShown _ _)

theorem State.retireByErrors_sameShown (s : State) (p : Nat) : SameShown s (s.retireByErrors p) := by
  unfold State.retireByErrors
  dsimp only
  split
  · exact State.retire_sameShown s _
  · exact .refl s

theorem State.publishHealth_sameShown (s : State) : SameShown s s.publishHealth := by
  unfold State.publishHealth State.rewriteSummary
  dsimp only
  split
  · exact .refl s
  · exact (((State.updHealth_sameShown _ _).trans (State.updHealth_sameShown _ _)).trans
      (State.raiseVector_sameShown _ _)).trans (State.updHealth_sameShown _ _)

theorem State.noted_sameShown (s old : State) : SameShown s (s.noted old) := by
  unfold State.noted
  refine .trans ?_ (State.publishHealth_sameShown _)
  exact .of_parts rfl rfl (fun _ _ _ _ => rfl) rfl rfl rfl rfl

/-- The rule of retpol applied to every tile changes no register (R327). -/
theorem State.retireAll_sameShown (s : State) (l : List Nat) : SameShown s (l.foldl State.retireByErrors s) :=
  List.foldlRecOn (motive := SameShown s) l _ (.refl s) (fun t ht p _ => ht.trans (State.retireByErrors_sameShown t p))

/-! What a write of BAR0 leaves. -/

/-- A register holds the value written, and every other one, the vtiles and the memories are as they were. -/
structure Stored (s t : State) (p : BarRegister) (w : Word) : Prop where
  shows : t.up.shows = s.up.shows
  value : t.shown p = w
  others : ∀ p' m, BarRegister.Holds p' m → p' ≠ p → t.shown p' = s.shown p'
  vts : t.vts = s.vts
  hbm : t.hbm = s.hbm
  hostMem : t.hostMem = s.hostMem

theorem Stored.then_sameShown {s t u : State} {p : BarRegister} {m w : Word} (h : Stored s t p w) (hp : p.Holds m)
    (h' : SameShown t u) : Stored s u p w where
  shows := h'.shows.trans h.shows
  value := (h'.shown p m hp).trans h.value
  others p' m' hp' hne := (h'.shown p' m' hp').trans (h.others p' m' hp' hne)
  vts := h'.vts.trans h.vts
  hbm := h'.hbm.trans h.hbm
  hostMem := h'.hostMem.trans h.hostMem

theorem Stored.up (s : State) {o : Nat} {m : Word} (v : Word) (h : (o, m) ∈ upFields) :
    Stored s (s.updUp (fun u => u.store o v)) (.up o) (v &&& m) where
  shows := s.up.shows_store o v
  value := s.upReg_store_same h
  others p' m' hp' hne := by
    cases p' with
    | up o' => exact s.upReg_store_other h hp' (fun he => hne (congrArg _ he))
    | ten r => exact State.tenReg_congr rfl hp'
    | queue | window | rel => rfl
  vts := rfl
  hbm := rfl
  hostMem := rfl

theorem Stored.queue (s : State) {q r : Nat} {m : Word} (v : Word) (h : (r, m) ∈ queueFields)
    (hcfg : r = 0x10 → (Sparse.get s.queues q).idle = true ∧ (Sparse.get s.queues q).ringEmpty 0 = true
      ∧ (Sparse.get s.queues q).ringEmpty 1 = true)
    (hbase0 : r = 0x30 → (Sparse.get s.queues q).ringEmpty 0 = true)
    (hbase1 : r = 0x38 → (Sparse.get s.queues q).ringEmpty 1 = true) :
    Stored s (s.updQueue q (fun b => b.write r v)) (.queue q r) (v &&& m) where
  shows := rfl
  value := by
    simp only [State.shown, State.updQueue, Sparse.get_upd_same]
    exact QBlock.reg_write_same h hcfg hbase0 hbase1
  others p' m' hp' hne := by
    cases p' with
    | queue q' r' =>
      by_cases hq : q' = q
      · subst hq
        simp only [State.shown, State.updQueue, Sparse.get_upd_same]
        exact QBlock.reg_write_other h hp'.2 (fun he => hne (congrArg _ he))
      · simp only [State.shown, State.updQueue, Sparse.get_upd_other _ _ hq]
    | ten r' => exact State.tenReg_congr rfl hp'
    | up | window | rel => rfl
  vts := rfl
  hbm := rfl
  hostMem := rfl

theorem Stored.window (s : State) (v : Word) :
    Stored s (s.updTen (fun t => t.writeWindow 0 v)) .window (v &&& 0x0FFFFFFF) where
  shows := rfl
  value := s.ten.windowReg_writeWindow v
  others p' m' hp' hne := by
    cases p' with
    | ten r => exact s.tenReg_writeWindow v hp'
    | window => exact absurd rfl hne
    | up | queue | rel => rfl
  vts := rfl
  hbm := rfl
  hostMem := rfl

theorem Stored.ten (s : State) {r : Nat} {m : Word} (v : Word) (h : (r, m) ∈ tenFields) :
    Stored s (s.updTen (fun t => t.store r v)) (.ten r) (v &&& m) where
  shows := rfl
  value := s.tenReg_store_same h
  others p' m' hp' hne := by
    cases p' with
    | ten r' => exact s.tenReg_store_other h hp' (fun he => hne (congrArg _ he))
    | window => exact s.ten.windowReg_store r v 0
    | up | queue | rel => rfl
  vts := rfl
  hbm := rfl
  hostMem := rfl

theorem Stored.rel (s : State) {r : Nat} {m : Word} (v : Word) (h : (r, m) ∈ relFields) :
    Stored s (s.updRel (fun l => l.write r v)) (.rel r) (v &&& m) where
  shows := rfl
  value := s.rel.reg_write_same h
  others p' m' hp' hne := by
    cases p' with
    | rel r' => exact s.rel.reg_write_other h hp' (fun he => hne (congrArg _ he))
    | ten r' => exact State.tenReg_congr rfl hp'
    | up | queue | window => rfl
  vts := rfl
  hbm := rfl
  hostMem := rfl

/-- A write of rgrst without its go bit. -/
theorem State.writeRgrst_store {s : State} {v : Word} (hopen : s.barOpen = true) (hgo : v.getLsbD 8 = false) :
    s.writeRgrst v = s.updUp (fun u => u.store 0x60 v) := by
  simp only [State.writeRgrst, hopen, hgo, Bool.not_true, Bool.not_false, Bool.true_or, Bool.false_eq_true, if_true,
    if_false, BringUp.store]

/-- A write of mrel without its go bit. -/
theorem State.writeMrel_store {s : State} {v : Word} (hopen : s.barOpen = true) (hgo : v.getLsbD 8 = false) :
    s.writeMrel v = s.updUp (fun u => u.store 0x70 v) := by
  simp only [State.writeMrel, hopen, hgo, Bool.not_true, Bool.not_false, Bool.false_eq_true, if_true, if_false,
    BringUp.store]

theorem State.writeBar0_up {s : State} {o : Nat} {m v : Word} (h : (o, m) ∈ upFields) (hs : s.up.shows o = true)
    (hgo : o = 0x60 ∨ o = 0x70 → v.getLsbD 8 = false) : s.writeBar0 o v = s.updUp (fun u => u.store o v) := by
  have hreach := State.reaches_of_shows hs
  have hopen : ¬ o < 0x30 → s.barOpen = true := State.barOpen_of_shows hs
  clear hs
  simp only [upFields, List.mem_cons, List.not_mem_nil, or_false, Prod.mk.injEq] at h
  rcases h with ⟨rfl, -⟩ | ⟨rfl, -⟩ | ⟨rfl, -⟩ | ⟨rfl, -⟩ | ⟨rfl, -⟩ | ⟨rfl, -⟩
  · simp [State.writeBar0, hreach, BringUp.store]
  · simp [State.writeBar0, hreach, BringUp.store]
  · simp [State.writeBar0, hreach, hopen, BringUp.store]
  · simp [State.writeBar0, hreach, hopen, BringUp.store]
  · rw [← State.writeRgrst_store (hopen (by decide)) (hgo (.inl rfl))]
    simp [State.writeBar0, hreach, hopen]
  · rw [← State.writeMrel_store (hopen (by decide)) (hgo (.inr rfl))]
    simp [State.writeBar0, hreach, hopen]

/-- A write of a queue's register other than fans. -/
theorem State.writeQueue_stored {s : State} {q r : Nat} {m v : Word} (hp : (BarRegister.queue q r).Holds m)
    (hcfg : r = 0x10 → (Sparse.get s.queues q).idle = true ∧ (Sparse.get s.queues q).ringEmpty 0 = true
      ∧ (Sparse.get s.queues q).ringEmpty 1 = true)
    (hbase0 : r = 0x30 → (Sparse.get s.queues q).ringEmpty 0 = true)
    (hbase1 : r = 0x38 → (Sparse.get s.queues q).ringEmpty 1 = true) :
    Stored s (s.writeQueue q r v) (.queue q r) (v &&& m) := by
  have hst := Stored.queue s v hp.2 hcfg hbase0 hbase1
  rw [State.writeQueue, if_neg (queueFields_spec hp.2).2.2]
  dsimp only
  split
  · exact hst.then_sameShown hp (State.fetchQueue_sameShown _ q)
  · exact hst

/-- A write of a reliability register; a new retpol retires tiles, and changes no other register. -/
theorem State.writeRel_stored (s : State) {r : Nat} {m : Word} (v : Word) (h : (r, m) ∈ relFields) :
    Stored s (s.writeRel r v) (.rel r) (v &&& m) := by
  have hst := Stored.rel s v h
  unfold State.writeRel
  dsimp only
  split
  · exact hst.then_sameShown (p := .rel r) h
      ((State.retireAll_sameShown _ _).trans (State.noted_sameShown _ _))
  · exact hst

/-- Beyond the registers of bring-up a write goes to its block (R303). -/
theorem State.writeBar0_high {s : State} {o : Nat} (v : Word) (hs : s.up.shows o = true) (ho : 0x1000 ≤ o) :
    s.writeBar0 o v =
      if 0x10000 ≤ o ∧ o < 0x13000 then s.writeQueue ((o - 0x10000) / 256) (o % 256) v
      else if 0x200000 ≤ o ∧ o < 0x201000 then s.updTen (fun t => t.writeWindow (o - 0x200000) v)
      else if 0x400000 ≤ o ∧ o < 0x800000 then s.writeTen (o - 0x400000) v
      else if 0x800000 ≤ o ∧ o < 0xC00000 then s.writeRel (o - 0x800000) v
      else s := by
  have hreach := State.reaches_of_shows hs
  have hopen : s.barOpen = true := State.barOpen_of_shows hs (by omega)
  clear hs
  simp (disch := omega) only [State.writeBar0, hreach, hopen, if_neg, Bool.and_eq_true, decide_eq_true_eq,
    Bool.false_eq_true, if_false, Bool.not_true]

/-- A plain write of a register that the host sees stores its RW fields and changes nothing else (R303 to R308). -/
theorem State.writeBar0_stored {s : State} {p : BarRegister} {m v : Word} (hp : p.Holds m)
    (hs : s.up.shows p.offset = true) (hplain : Rules.plainWrite s p.offset v) :
    Stored s (s.writeBar0 p.offset v) p (v &&& m) := by
  obtain ⟨hchanging, hqueue, hgo, hop⟩ := hplain
  cases p with
  | up o =>
    rw [show (BarRegister.up o).offset = o from rfl] at *
    rw [State.writeBar0_up hp hs hgo]
    exact .up s v hp
  | queue q r =>
    rw [show (BarRegister.queue q r).offset = 0x10000 + 256 * q + r from rfl] at *
    have hq : q < 48 := hp.1
    obtain ⟨-, hlt, -⟩ := queueFields_spec hp.2
    obtain ⟨hcfg, hbase0, hbase1⟩ := hqueue q hq
    rw [State.writeBar0_high v hs (by omega), if_pos (by omega),
      show (0x10000 + 256 * q + r - 0x10000) / 256 = q by omega, show (0x10000 + 256 * q + r) % 256 = r by omega]
    exact State.writeQueue_stored hp (fun hr => hcfg (by omega)) (fun hr => hbase0 (by omega)) (fun hr => hbase1 (by omega))
  | window =>
    obtain rfl : m = 0x0FFFFFFF := hp
    rw [State.writeBar0_high v hs (by decide)]
    exact .window s v
  | ten r =>
    rw [show (BarRegister.ten r).offset = 0x400000 + r from rfl] at *
    obtain ⟨-, hlt⟩ := tenFields_spec hp
    rw [State.writeBar0_high v hs (by omega), if_neg (by omega), if_neg (by omega), if_pos (by omega),
      Nat.add_sub_cancel_left, State.writeTen_eq_store hp (fun hr => hchanging (by omega) (by omega))
        (fun hr => hop (by omega))]
    exact .ten s v hp
  | rel r =>
    rw [show (BarRegister.rel r).offset = 0x800000 + r from rfl] at *
    obtain ⟨-, hlt⟩ := relFields_spec hp
    rw [State.writeBar0_high v hs (by omega), if_neg (by omega), if_neg (by omega), if_neg (by omega),
      if_pos (by omega), Nat.add_sub_cancel_left]
    exact s.writeRel_stored v hp

end Sys2Proof.Machine
end

section
/-! SUPPORT. The event of a register write, the virtual functions, the Idhan bus and the records; and O50. -/

namespace Sys2Proof.Machine

/-! REGISTER_WRITE (R303 to R305). -/

/-- What a write leaves in the half that it does not cover is what a read gives, but for two registers (log entry 100). -/
theorem State.keptHalf_eq (s : State) {o : Nat} (h : o ≠ 0x200008) (h' : o ≠ 0x50) :
    s.keptHalf .pf o = s.readReg .pf o := by
  simp [State.keptHalf, h, h']

/-- A write of 8 bytes, or of 4 to either half, of the register at an offset of BAR0. -/
theorem exec_registerWrite_pf {s : State} {o : Nat} (hb : s.arg.space = .pf) (ho : o % 8 = 0)
    (hn : s.arg.n = o ∨ (s.arg.ok = true ∧ s.arg.n = o + 4)) :
    exec .registerWrite s
      = .next (s.writeBar0 o (Rules.written (s.keptHalf .pf o) s.arg.ok (s.arg.n / 4 % 2) s.arg.v)) := by
  have halign : ¬ s.arg.n % (if s.arg.ok then 4 else 8) ≠ 0 := by
    rcases hn with hn | ⟨hok, hn⟩
    · split <;> omega
    · rw [hok, if_pos rfl]
      omega
  have hoff : s.arg.n / 8 * 8 = o := by omega
  change execRegisterWrite s = _
  simp only [execRegisterWrite, hb, inBar, Bool.and_true, Bool.true_and, if_true, hoff, halign, decide_false,
    Bool.false_eq_true, if_false, halfWrite_eq_written]
  rfl

/-- A write of BAR0 at any place writes some value at the offset of a register, or nothing. -/
theorem exec_registerWrite_pf_cases {s : State} (hb : s.arg.space = .pf) :
    exec .registerWrite s = .next s ∨ ∃ v, exec .registerWrite s = .next (s.writeBar0 (s.arg.n / 8 * 8) v) := by
  change execRegisterWrite s = _ ∨ ∃ v, execRegisterWrite s = _
  simp only [execRegisterWrite, hb]
  by_cases halign : (inBar .pf && decide (s.arg.n % (if (s.arg.ok && inBar .pf) = true then 4 else 8) ≠ 0)) = true
  · exact .inl (if_pos halign)
  · exact .inr ⟨_, if_neg halign⟩

/-- A plain write of a register stores its RW fields (R303 to R308). -/
theorem registerWrite_stores {s : State} {o : Nat} {v mask : Word}
    (hshow : s.barOpen = true ∨ (o < 0x30 ∧ s.up.reset = false ∧ s.up.hostLink = true ∧ s.up.d3 = false))
    (hv : v = Rules.written (s.readReg .pf o) s.arg.ok (s.arg.n / 4 % 2) s.arg.v) (hb : s.arg.space = .pf)
    (hn : s.arg.n = o ∨ (s.arg.ok = true ∧ s.arg.n = o + 4)) (hmem : (o, mask) ∈ Rules.registers)
    (hplain : Rules.plainWrite s o v) :
    Completes .registerWrite s (fun t => t.readReg .pf o = v &&& mask
      ∧ (∀ x, x ∈ Rules.registers → x.1 ≠ o → t.readReg .pf x.1 = s.readReg .pf x.1)
      ∧ t.vts = s.vts ∧ t.hbm = s.hbm ∧ t.hostMem = s.hostMem) := by
  obtain ⟨p, rfl, hp⟩ := BarRegister.exists_of_mem hmem
  have hs : s.up.shows p.offset = true := by
    rcases hshow with hopen | ⟨hlow, hreset, hlink, hd3⟩
    · simp_all [State.barOpen, State.hostReaches, BringUp.shows]
    · simp [BringUp.shows, hlow, hreset, hlink, hd3]
  obtain ⟨halign, hwin, htset⟩ := BarRegister.offset_spec hp
  have hst := State.writeBar0_stored hp hs hplain
  refine ⟨s.writeBar0 p.offset v, ?_, ?_, ?_, hst.vts, hst.hbm, hst.hostMem⟩
  · rw [exec_registerWrite_pf hb halign hn, s.keptHalf_eq hwin htset, hv]
  · rw [State.readReg_offset _ hp, hst.shows, if_pos hs, hst.value]
  · intro x hx hne
    obtain ⟨p', hoff, hp'⟩ := BarRegister.exists_of_mem (m := x.2) hx
    have hne' : p' ≠ p := fun he => hne (by rw [← hoff, he])
    rw [← hoff, State.readReg_offset _ hp', State.readReg_offset _ hp', hst.shows, hst.others p' x.2 hp' hne']

/-- A read of 4 bytes gives the half at its address (R304). -/
theorem State.readAccess_halves (s : State) {b : RegSpace} {o : Nat} (hb : inBar b = true) (ho : o % 8 = 0) :
    s.readAccess b true o = (s.readAccess b false o) &&& 0xFFFFFFFF
      ∧ s.readAccess b true (o + 4) = (s.readAccess b false o) >>> 32 := by
  have h4 : ¬ o % 4 ≠ 0 := by omega
  have h4' : ¬ (o + 4) % 4 ≠ 0 := by omega
  have h8 : ¬ o % 8 ≠ 0 := by omega
  simp only [State.readAccess, hb, Bool.not_true, Bool.false_eq_true, if_false, if_true, h4, h4', h8,
    show o / 8 * 8 = o by omega, show (o + 4) / 8 * 8 = o by omega, show o / 4 % 2 = 0 by omega,
    show (o + 4) / 4 % 2 = 1 by omega, Nat.mul_zero, Nat.mul_one]
  constructor
  · rw [show (0xFFFFFFFF : Word) = BitVec.ofNat 64 (2 ^ 32 - 1) from rfl, ← setWidth_eq_and _ (by decide)]
    rfl
  · apply BitVec.eq_of_toNat_eq
    rw [BitVec.toNat_setWidth, BitVec.extractLsb'_toNat, BitVec.toNat_ushiftRight]
    have := (s.readReg b o).isLt
    rw [Nat.shiftRight_eq_div_pow]
    omega

/-- Over no link and in D3hot a write of BAR0 has no effect (log entry 102). -/
theorem registerWrite_closed {s : State} (h : s.up.hostLink = false ∨ s.up.d3 = true) (hb : s.arg.space = .pf) :
    Completes .registerWrite s (fun t => t = s) := by
  have hclosed : (!s.hostReaches || s.up.d3) = true := by
    rcases h with h | h <;> simp [State.hostReaches, h]
  rcases exec_registerWrite_pf_cases hb with he | ⟨v, he⟩
  · exact ⟨s, he, rfl⟩
  · exact ⟨_, he, if_pos hclosed⟩

/-- The read-only registers of the clause on them. -/
def readOnly : List Nat :=
  [0x00, 0x08, 0x28, 0x68, 0x78, 0x400000, 0x401020, 0x402000, 0x402010, 0x800038]

/-- A read-only register ignores a write. -/
theorem State.writeBar0_readOnly (s : State) {o : Nat} (v : Word) (h : o ∈ readOnly) : s.writeBar0 o v = s := by
  simp only [readOnly, List.mem_cons, List.not_mem_nil, or_false] at h
  rcases h with rfl | rfl | rfl | rfl | rfl | rfl | rfl | rfl | rfl | rfl
  all_goals
    simp [State.writeBar0, State.updUp, BringUp.write, State.writeTen, State.writeRel, State.updRel, Reliability.write]

theorem registerWrite_readOnly {s : State} (hb : s.arg.space = .pf) (h : s.arg.n ∈ readOnly) :
    Completes .registerWrite s (fun t => t = s) := by
  have halign : s.arg.n % 8 = 0 := (by decide : ∀ n ∈ readOnly, n % 8 = 0) _ h
  exact ⟨_, exec_registerWrite_pf hb halign (.inl rfl), s.writeBar0_readOnly _ h⟩

/-- refused is cleared by writing 1 (R313). -/
theorem registerWrite_refused {s : State} (hopen : s.barOpen = true) (hb : s.arg.space = .pf)
    (hn : s.arg.n = 0x200008) (hok : s.arg.ok = false) : Completes .registerWrite s (fun t =>
      t = { s with ten := { s.ten with twrefused := s.ten.twrefused && !s.arg.v.getLsbD 0 } }) := by
  have hs : s.up.shows 0x200008 = true := by
    simp_all [State.barOpen, State.hostReaches, BringUp.shows]
  refine ⟨_, exec_registerWrite_pf hb (by decide) (.inl hn), ?_⟩
  rw [hok, State.writeBar0_high _ hs (by decide)]
  rfl

/-! Virtual functions and the Idhan bus. -/

/-- The registers of a tenant slot's fault ring that a virtual function writes, with their RW fields (R303). -/
def slotFields : List (Nat × Word) := [(0x00, (~~~0x3F : Word)), (0x08, 0xFF), (0x18, 0xFFFFFFFF)]

theorem QBlock.slotReg_writeSlot {b : QBlock} {slot r : Nat} {mask : Word} (v : Word) (h : (r, mask) ∈ slotFields)
    (hempty : b.ringEmpty slot = true) : (b.writeSlot slot r v).slotReg slot r = v &&& mask := by
  have hsize : BitVec.ofNat 64 (v.setWidth 8 : BitVec 8).toNat = v &&& 0xFF :=
    (BitVec.ofNat_toNat 64 _).trans (setWidth_eq_and v (k := 8) (by decide))
  simp only [slotFields, List.mem_cons, List.not_mem_nil, or_false, Prod.mk.injEq] at h
  by_cases hslot : slot = 0
  · subst hslot
    rcases h with ⟨rfl, rfl⟩ | ⟨rfl, rfl⟩ | ⟨rfl, rfl⟩
    · simp only [QBlock.writeSlot, QBlock.setBase_zero, hempty, if_true]
      exact lowZero_eq_and v 6
    · simp only [QBlock.writeSlot, QBlock.setSize_zero, hempty, if_true]
      exact hsize
    · exact setWidth_eq_and v (k := 32) (by decide)
  · rcases h with ⟨rfl, rfl⟩ | ⟨rfl, rfl⟩ | ⟨rfl, rfl⟩
    · simp only [QBlock.writeSlot, QBlock.setBase, hempty, hslot, QBlock.slotReg, Bool.not_true, Bool.false_eq_true,
        if_false]
      exact lowZero_eq_and v 6
    · simp only [QBlock.writeSlot, QBlock.setSize, hempty, hslot, QBlock.slotReg, QBlock.ring, Bool.not_true,
        Bool.false_eq_true, if_false]
      exact hsize
    · simp only [QBlock.writeSlot, QBlock.setHead, hslot, QBlock.slotReg, QBlock.ring, if_false]
      exact setWidth_eq_and v (k := 32) (by decide)

/-- A write by a virtual function of a register of its tenant's slot. -/
theorem State.writeVf_eq {s : State} {i o slot : Nat} (v : Word) (hopen : s.barOpen = true) (hi : 1 ≤ i) (hi' : i ≤ 15)
    (hvfs : s.up.vfs = true) (hslot : s.vfSlot i o = some slot) (ho : o % 64 ≠ 0x20) :
    s.writeVf i o v = s.updQueue (o / 64) (fun b => b.writeSlot slot (o % 64) v) := by
  have hreach : s.hostReaches = true := by simp_all [State.barOpen]
  simp [State.writeVf, hi, hi', hvfs, hreach, hslot, ho]

/-- A virtual function shows and writes the fault ring of its tenant's slot (R303). -/
theorem registerWrite_vf {s : State} {i slot : Nat} {mask : Word} (hopen : s.barOpen = true) (hb : s.arg.space = .vf i)
    (hi : 1 ≤ i) (hi' : i ≤ 15) (hvfs : s.up.vfs = true) (hok : s.arg.ok = false) (halign : s.arg.n % 8 = 0)
    (hslot : s.vfSlot i s.arg.n = some slot) (hempty : (Sparse.get s.queues (s.arg.n / 64)).ringEmpty slot = true)
    (hr : (s.arg.n % 64, mask) ∈ slotFields) :
    Completes .registerWrite s (fun t => t.readReg (.vf i) s.arg.n = s.arg.v &&& mask ∧ t.vts = s.vts) := by
  have hfans : s.arg.n % 64 ≠ 0x20 := (by decide : ∀ x ∈ slotFields, x.1 ≠ 0x20) _ hr
  have hreach : s.hostReaches = true := by simp_all [State.barOpen]
  refine ⟨s.writeVf i s.arg.n s.arg.v, ?_, ?_, ?_⟩
  · change execRegisterWrite s = _
    simp [execRegisterWrite, hb, hok, inBar, halign, halfWrite, State.writeReg,
      show s.arg.n / 8 * 8 = s.arg.n by omega]
  · rw [State.writeVf_eq _ hopen hi hi' hvfs hslot hfans]
    have hslot' : (s.updQueue (s.arg.n / 64) (fun b => b.writeSlot slot (s.arg.n % 64) s.arg.v)).vfSlot i s.arg.n
        = some slot := hslot
    have hshown : ((s.updQueue (s.arg.n / 64) (fun b => b.writeSlot slot (s.arg.n % 64) s.arg.v)).up.vfs
        && (s.updQueue (s.arg.n / 64) (fun b => b.writeSlot slot (s.arg.n % 64) s.arg.v)).hostReaches) = true := by
      rw [Bool.and_eq_true]
      exact ⟨hvfs, hreach⟩
    simp only [State.readReg, hshown, hslot', if_true]
    simp only [State.updQueue, Sparse.get_upd_same]
    exact QBlock.slotReg_writeSlot _ hr hempty
  · rw [State.writeVf_eq _ hopen hi hi' hvfs hslot hfans]
    rfl

/-- What follows from a change of the target changes neither the target nor a vtile. -/
theorem State.reviseEv_spec (s : State) :
    s.reviseEv.ev.ports = s.ev.ports ∧ s.reviseEv.ev.serial = s.ev.serial ∧ s.reviseEv.vts = s.vts := by
  unfold State.reviseEv
  dsimp only
  split
  · exact ⟨rfl, rfl, rfl⟩
  · split
    · exact ⟨rfl, rfl, rfl⟩
    · exact ⟨rfl, rfl, rfl⟩

/-- The registers of the Idhan bus that hold what is written, with their RW fields (R354, R357, R359). -/
def idhanFields : List (Nat × Word) :=
  [(0x101, (0xFFFFFFFFFFFF : Word)), (0x102, BitVec.allOnes 64), (0x201, BitVec.allOnes 64), (0x231, BitVec.allOnes 64)]

theorem State.writeReg_idhan (s : State) {o : Nat} {mask : Word} (v : Word) (h : (o, mask) ∈ idhanFields) :
    (s.writeReg .idhan o v).readReg .idhan o = v &&& mask ∧ (s.writeReg .idhan o v).vts = s.vts := by
  simp only [idhanFields, List.mem_cons, List.not_mem_nil, or_false, Prod.mk.injEq] at h
  rcases h with ⟨rfl, rfl⟩ | ⟨rfl, rfl⟩ | ⟨rfl, rfl⟩ | ⟨rfl, rfl⟩
  · obtain ⟨hports, -, hvts⟩ := (s.updEv (fun e => { e with ports := v.setWidth 48 })).reviseEv_spec
    refine ⟨?_, hvts⟩
    change (State.ev _).ports.setWidth 64 = _
    exact (congrArg (BitVec.setWidth 64) hports).trans (setWidth_eq_and v (k := 48) (by decide))
  · obtain ⟨-, hserial, hvts⟩ := (s.updEv (fun e => { e with serial := v })).reviseEv_spec
    exact ⟨hserial.trans BitVec.and_allOnes.symm, hvts⟩
  · exact ⟨BitVec.and_allOnes.symm, rfl⟩
  · exact ⟨BitVec.and_allOnes.symm, rfl⟩

/-- The Idhan bus has the eviction's target and two selections (R354, R357, R359). -/
theorem registerWrite_idhan {s : State} {mask : Word} (hb : s.arg.space = .idhan)
    (h : (s.arg.n, mask) ∈ idhanFields) :
    Completes .registerWrite s (fun t => t.readReg .idhan s.arg.n = s.arg.v &&& mask ∧ t.vts = s.vts) := by
  refine ⟨s.writeReg .idhan s.arg.n s.arg.v, ?_, s.writeReg_idhan s.arg.v h⟩
  change execRegisterWrite s = _
  simp [execRegisterWrite, hb, inBar, halfWrite]

theorem rules_registers : Rules.Registers := by
  intro s
  refine ⟨fun o v mask hshow hv hb hn hmem hplain => registerWrite_stores hshow hv hb hn hmem hplain,
    fun b o hb ho => s.readAccess_halves ?_ ho, registerWrite_closed, registerWrite_readOnly, registerWrite_refused,
    fun i slot hopen hb hi hi' hvfs hok halign hslot hempty mask hr =>
      registerWrite_vf hopen hb hi hi' hvfs hok halign hslot hempty hr,
    fun mask hb h => registerWrite_idhan hb h⟩
  rcases hb with rfl | ⟨i, rfl⟩
  · rfl
  · rfl

/-! Records (R357, R359, R360). -/

/-- A table that gives every key below n its value reads as those values. -/
theorem Sparse.get_map_of_mem {α : Type} [Inhabited α] (f : Nat → α) {l : List Nat} {p : Nat} (h : p ∈ l) :
    Sparse.get (l.map (fun k => (k, f k))) p = f p := by
  induction l with
  | nil => exact absurd h List.not_mem_nil
  | cons k l ih =>
    rw [List.map_cons, Sparse.get]
    by_cases hk : k = p
    · rw [if_pos hk, hk]
    · rw [if_neg hk]
      exact ih ((List.mem_cons.mp h).resolve_left (Ne.symm hk))

/-- The counters as they are saved. -/
theorem State.saveCounters_nv (s : State) : s.saveCounters.health.nv
    = (List.range 6144).map (fun p => (p, { (s.ptile p).nv with pwr := s.powered p })) := by
  simp only [State.saveCounters, State.updHealth]

/-- The counters are saved once a minute (R357). -/
theorem nvCounterSave_saves {s : State} (h : 60000000000 ≤ s.time.toNat - s.health.saveTime.toNat) :
    Completes .nvCounterSave s (fun t =>
      t.health.saveTime = s.time ∧ ∀ p, p < 6144 → (Sparse.get t.health.nv p).uce = (s.ptile p).uce
        ∧ (Sparse.get t.health.nv p).rot = (s.ptile p).rot ∧ (Sparse.get t.health.nv p).scrp = (s.ptile p).scrp) := by
  refine ⟨s.saveCounters, if_pos h, rfl, fun p hp => ?_⟩
  rw [State.saveCounters_nv,
    Sparse.get_map_of_mem (fun p => ({ (s.ptile p).nv with pwr := s.powered p } : PTile)) (List.mem_range.mpr hp)]
  exact ⟨rfl, rfl, rfl⟩

/-- RETIREMENT_LOG_COMMIT of the oldest entry that waits (R359, R360). -/
theorem exec_retirementLogCommit {s : State} {r : Retirement} {l : List Retirement} (h : s.health.pending = r :: l) :
    exec .retirementLogCommit s =
      if r.waits then .next s
      else if s.arg.c = 1 then .next (s.updHealth (fun h => { h with
        programmed := max h.programmed (min s.arg.j entryBytes) }))
      else .next (s.updHealth (fun h => { h with
        pending := l, programmed := 0, log := Sparse.set h.log h.logCount (some r)
        logCount := h.logCount + 1 })).rewriteSummary := by
  change execRetirementLogCommit s = _
  rw [execRetirementLogCommit, h]

theorem rules_records : Rules.Records := by
  intro s
  refine ⟨nvCounterSave_saves, fun r l h => ⟨fun hwaits hc => ?_, fun hwaits hc => ?_, fun hwaits => ?_⟩⟩
  · refine ⟨_, (exec_retirementLogCommit h).trans ((if_neg (by simp [hwaits])).trans (if_neg hc)), rfl, ?_, rfl, rfl⟩
    exact Sparse.get_set_same s.health.log s.health.logCount (some r)
  · exact ⟨_, (exec_retirementLogCommit h).trans ((if_neg (by simp [hwaits])).trans (if_pos hc)), rfl⟩
  · exact ⟨s, (exec_retirementLogCommit h).trans (if_pos hwaits), rfl⟩

/-- Settles O50: a write goes to the block of its register, which stores the RW fields, and every other register, read through
its own block, is what it was; the records by the clauses of their events. -/
theorem registersAndRecords : Obligations.RegistersAndRecords := ⟨rules_registers, rules_records⟩

end Sys2Proof.Machine
end

section
/-! SUPPORT. The choice among the candidates of a pipe: the first of the best in round-robin order (R30); O55 and O56. -/

namespace Sys2Proof.Machine

/-- A slot's place in round-robin order after the last to issue. -/
def rrRank (last : BitVec 3) (p : Nat) : Nat := (p + 7 - last.toNat) % 8

theorem rrOrder_pairwise (last : BitVec 3) : (rrOrder last).Pairwise (fun p q => rrRank last p < rrRank last q) := by
  revert last; decide

theorem mem_rrOrder (last : BitVec 3) (p : Nat) : p ∈ rrOrder last ↔ p < 8 := by
  constructor
  · intro h
    obtain ⟨j, -, rfl⟩ := List.mem_map.1 h
    exact Nat.mod_lt _ (by decide)
  · revert p last; decide

theorem rrRank_last {q : Nat} (h : q < 8) : rrRank (BitVec.ofNat 3 q) q = 7 := by
  revert q; decide

theorem rrRank_lt_of_ne_last {p q : Nat} (hq : q < 8) (hp : p < 8) (h : p ≠ q) : rrRank (BitVec.ofNat 3 q) p < 7 :=
  (by decide : ∀ q < 8, ∀ p < 8, p ≠ q → rrRank (BitVec.ofNat 3 q) p < 7) q hq p hp h

/-- A slot is the first of a list with the highest effective priority. -/
def VTile.FirstBest (t : VTile) (l : List Nat) (q : Nat) : Prop :=
  ∃ l₁ l₂, l = l₁ ++ q :: l₂ ∧ (∀ p ∈ l₁, t.effPrio p < t.effPrio q) ∧ ∀ p ∈ l₂, t.effPrio p ≤ t.effPrio q

theorem VTile.FirstBest.mem {t : VTile} {l : List Nat} {q : Nat} (h : t.FirstBest l q) : q ∈ l := by
  obtain ⟨l₁, l₂, rfl, -, -⟩ := h
  exact List.mem_append_right l₁ (List.mem_cons_self ..)

theorem VTile.FirstBest.le {t : VTile} {l : List Nat} {p q : Nat} (h : t.FirstBest l q) (hp : p ∈ l) :
    t.effPrio p ≤ t.effPrio q := by
  obtain ⟨l₁, l₂, rfl, hbefore, hafter⟩ := h
  rcases List.mem_append.1 hp with hp | hp
  · exact Nat.le_of_lt (hbefore p hp)
  · rcases List.mem_cons.1 hp with rfl | hp
    · exact Nat.le_refl _
    · exact hafter p hp

/-- A candidate that the next one beats is not the first of the best. -/
theorem VTile.FirstBest.cons_of_lt {t : VTile} {b x q : Nat} {l : List Nat} (h : t.FirstBest (x :: l) q)
    (hx : t.effPrio b < t.effPrio x) : t.FirstBest (b :: x :: l) q := by
  have hb : t.effPrio b < t.effPrio q := Nat.lt_of_lt_of_le hx (h.le (List.mem_cons_self ..))
  obtain ⟨l₁, l₂, hl, hbefore, hafter⟩ := h
  refine ⟨b :: l₁, l₂, by rw [hl, List.cons_append], fun p hp => ?_, hafter⟩
  rcases List.mem_cons.1 hp with rfl | hp
  · exact hb
  · exact hbefore p hp

/-- A candidate that does not beat the one before it is not the first of the best. -/
theorem VTile.FirstBest.insert_of_le {t : VTile} {b x q : Nat} {l : List Nat} (h : t.FirstBest (b :: l) q)
    (hx : t.effPrio x ≤ t.effPrio b) : t.FirstBest (b :: x :: l) q := by
  obtain ⟨l₁, l₂, hl, hbefore, hafter⟩ := h
  cases l₁ with
  | nil =>
    obtain ⟨rfl, rfl⟩ := List.cons.inj hl
    refine ⟨[], x :: l, rfl, hbefore, fun p hp => ?_⟩
    rcases List.mem_cons.1 hp with rfl | hp
    · exact hx
    · exact hafter p hp
  | cons c l₁ =>
    obtain ⟨rfl, rfl⟩ := List.cons.inj hl
    have hb : t.effPrio b < t.effPrio q := hbefore b (List.mem_cons_self ..)
    refine ⟨b :: x :: l₁, l₂, rfl, fun p hp => ?_, hafter⟩
    rcases List.mem_cons.1 hp with rfl | hp
    · exact hb
    · rcases List.mem_cons.1 hp with rfl | hp
      · exact Nat.lt_of_le_of_lt hx hb
      · exact hbefore p (List.mem_cons_of_mem b hp)

/-- The folding of candidates ends at the first of the best. -/
theorem VTile.foldl_better_some (t : VTile) (l : List Nat) (b : Nat) :
    ∃ q, l.foldl t.better (some b) = some q ∧ t.FirstBest (b :: l) q := by
  induction l generalizing b with
  | nil => exact ⟨b, rfl, [], [], rfl, by simp⟩
  | cons x l ih =>
    rw [List.foldl_cons, VTile.better]
    split
    case isTrue hx =>
      obtain ⟨q, hq, hbest⟩ := ih x
      exact ⟨q, hq, hbest.cons_of_lt hx⟩
    case isFalse hx =>
      obtain ⟨q, hq, hbest⟩ := ih b
      exact ⟨q, hq, hbest.insert_of_le (Nat.le_of_not_lt hx)⟩

theorem VTile.foldl_better_eq_some {t : VTile} {l : List Nat} {q : Nat} (h : l.foldl t.better none = some q) :
    t.FirstBest l q := by
  cases l with
  | nil => cases h
  | cons b l =>
    obtain ⟨r, hr, hbest⟩ := t.foldl_better_some l b
    obtain rfl : r = q := Option.some.inj (hr.symm.trans h)
    exact hbest

theorem VTile.foldl_better_eq_none {t : VTile} {l : List Nat} (h : l.foldl t.better none = none) : l = [] := by
  cases l with
  | nil => rfl
  | cons b l =>
    obtain ⟨r, hr, -⟩ := t.foldl_better_some l b
    cases hr.symm.trans h

/-- The slots that can issue on a pipe and have not issued in the tc, in round-robin order. -/
def VTile.eligible (t : VTile) (a : Bool) : List Nat :=
  (rrOrder (if a then t.im.rrA else t.im.rrB)).filter (fun q => t.canIssue a q && !t.hasIssued q)

theorem VTile.mem_eligible {t : VTile} {a : Bool} {p : Nat} :
    p ∈ t.eligible a ↔ p < 8 ∧ t.canIssue a p = true ∧ t.hasIssued p = false := by
  simp [VTile.eligible, mem_rrOrder]

theorem VTile.eligible_pairwise (t : VTile) (a : Bool) :
    (t.eligible a).Pairwise (fun p q =>
      rrRank (if a then t.im.rrA else t.im.rrB) p < rrRank (if a then t.im.rrA else t.im.rrB) q) :=
  (rrOrder_pairwise _).filter _

theorem VTile.choose_eq_foldl {t : VTile} {a : Bool} (hruns : t.runs = true) (hrep : t.replayHolds a = false)
    (ha : a = true ∨ t.ahead = none) (hmon : t.monitorIssues a = false) :
    t.choose a = (t.eligible a).foldl t.better none := by
  have hahead : (!a && t.ahead.isSome) = false := by rcases ha with rfl | h <;> simp [*]
  simp [VTile.choose, VTile.eligible, hruns, hrep, hahead, hmon]

theorem VTile.choose_eq_ahead {t : VTile} {h : Ahead} (hruns : t.runs = true) (hrep : t.replayHolds false = false)
    (hahead : t.ahead = some h) : t.choose false = some h.who := by
  simp [VTile.choose, hruns, hrep, hahead]

theorem VTile.choose_eq_monitor {t : VTile} {a : Bool} (hruns : t.runs = true) (hrep : t.replayHolds a = false)
    (ha : a = true ∨ t.ahead = none) (hmon : t.monitorIssues a = true) : t.choose a = some monitorCtx := by
  have hahead : (!a && t.ahead.isSome) = false := by rcases ha with rfl | h <;> simp [*]
  simp [VTile.choose, hruns, hrep, hahead, hmon]

theorem VTile.canIssue_ready {t : VTile} {a : Bool} {q : Nat} (h : t.canIssue a q = true) :
    (t.proc q).st = .ready ∧ t.onPipe q a = true := by
  simp only [VTile.canIssue, VTile.candidate, Bool.and_eq_true, decide_eq_true_eq] at h
  obtain ⟨⟨⟨⟨hready, -⟩, hpipe⟩, -⟩, -⟩ := h
  exact ⟨hready, hpipe⟩

/-- The process chosen is one that can issue, before every other that could. -/
theorem VTile.choose_best {t : VTile} {a : Bool} {q p : Nat} (hruns : t.runs = true) (hrep : t.replayHolds a = false)
    (ha : a = true ∨ t.ahead = none) (hmon : t.monitorIssues a = false) (hq : t.choose a = some q)
    (hp : p ∈ t.eligible a) :
    t.effPrio p ≤ t.effPrio q ∧ (t.effPrio p = t.effPrio q →
      rrRank (if a then t.im.rrA else t.im.rrB) q ≤ rrRank (if a then t.im.rrA else t.im.rrB) p) := by
  have hbest := foldl_better_eq_some (choose_eq_foldl hruns hrep ha hmon ▸ hq)
  refine ⟨hbest.le hp, fun htie => ?_⟩
  obtain ⟨l₁, l₂, hl, hbefore, -⟩ := hbest
  have hpair := t.eligible_pairwise a
  rw [hl] at hp hpair
  rcases List.mem_append.1 hp with hp | hp
  · exact absurd htie (Nat.ne_of_lt (hbefore p hp))
  · rcases List.mem_cons.1 hp with rfl | hp
    · exact Nat.le_refl _
    · obtain ⟨-, hfrom, -⟩ := List.pairwise_append.1 hpair
      exact Nat.le_of_lt (List.rel_of_pairwise_cons hfrom hp)

theorem VTile.choose_mem_eligible {t : VTile} {a : Bool} {q : Nat} (hruns : t.runs = true)
    (hrep : t.replayHolds a = false) (ha : a = true ∨ t.ahead = none) (hmon : t.monitorIssues a = false)
    (hq : t.choose a = some q) : q ∈ t.eligible a :=
  (foldl_better_eq_some (choose_eq_foldl hruns hrep ha hmon ▸ hq)).mem

theorem VTile.eligible_nil_of_choose {t : VTile} {a : Bool} (hruns : t.runs = true)
    (hrep : t.replayHolds a = false) (ha : a = true ∨ t.ahead = none) (hmon : t.monitorIssues a = false)
    (hq : t.choose a = none) : t.eligible a = [] :=
  foldl_better_eq_none (choose_eq_foldl hruns hrep ha hmon ▸ hq)

/-- Settles O55: the choice folds the eligible slots in round-robin order, and the fold ends at the first of the best. -/
theorem issueChoice : Obligations.IssueChoice := by
  unfold Obligations.IssueChoice
  intro t a hruns hrep
  refine ⟨?_, VTile.choose_eq_monitor hruns hrep, fun ha hmon => ⟨fun q hq => ?_, fun hnone p hp hcan => ?_⟩⟩
  · rintro h rfl hahead
    exact VTile.choose_eq_ahead hruns hrep hahead
  · obtain ⟨hlt, hcan, hissued⟩ := VTile.mem_eligible.1 (VTile.choose_mem_eligible hruns hrep ha hmon hq)
    obtain ⟨hready, hpipe⟩ := VTile.canIssue_ready hcan
    exact ⟨hlt, hready, hpipe, hissued, hcan, fun p hp hcanp hissuedp =>
      VTile.choose_best hruns hrep ha hmon hq (VTile.mem_eligible.2 ⟨hp, hcanp, hissuedp⟩)⟩
  · have hno : p ∉ t.eligible a := by simp [VTile.eligible_nil_of_choose hruns hrep ha hmon hnone]
    simpa [VTile.mem_eligible, hp, hcan] using hno

/-! O56. -/

theorem VTile.runs_of_choose {t : VTile} {a : Bool} {q : Nat} (h : t.choose a = some q) :
    t.runs = true ∧ t.replayHolds a = false := by
  unfold VTile.choose at h
  split at h
  case isTrue => cases h
  case isFalse hno => simpa using hno

/-- The last to issue on a pipe is chosen there again only when every other slot that could issue has a lower effective
priority. -/
theorem VTile.effPrio_lt_of_choose_last {t : VTile} {a : Bool} {q p : Nat} (ha : a = true ∨ t.ahead = none) (hq : q < 8)
    (hlast : (if a then t.im.rrA else t.im.rrB) = BitVec.ofNat 3 q) (hchoose : t.choose a = some q)
    (hp : p ∈ t.eligible a) (hne : p ≠ q) : t.effPrio p < t.effPrio q := by
  obtain ⟨hruns, hrep⟩ := runs_of_choose hchoose
  have hmon : t.monitorIssues a = false := by
    refine Bool.eq_false_iff.2 fun hmon => ?_
    have : some q = some monitorCtx := hchoose.symm.trans (choose_eq_monitor hruns hrep ha hmon)
    simp only [Option.some.injEq, monitorCtx] at this
    omega
  obtain ⟨hle, htie⟩ := choose_best hruns hrep ha hmon hchoose hp
  refine Nat.lt_of_le_of_ne hle fun heq => ?_
  have hrank := htie heq
  rw [hlast, rrRank_last hq] at hrank
  exact absurd (rrRank_lt_of_ne_last hq (mem_eligible.1 hp).1 hne) (Nat.not_lt.2 hrank)

theorem onAPipe_yield {w : BitVec 32} (h : encode .yield = some w) : onAPipe w = true := by
  have hall : (encode .yield).all onAPipe = true := by decide
  rwa [h] at hall

theorem VTile.issued_rr (t : VTile) (a : Bool) {q : Nat} (hq : q ≠ monitorCtx) :
    (if a then (t.issued a q).im.rrA else (t.issued a q).im.rrB) = BitVec.ofNat 3 q := by
  cases a <;> simp [VTile.issued, hq]

theorem VTile.issued_proc_same (t : VTile) (a : Bool) {q : Nat} (hq : q ≠ monitorCtx) :
    (t.issued a q).proc q = { t.proc q with ageing := 0, aged := false } := by
  cases a <;> simp [VTile.issued, hq, VTile.proc]

/-- Settles O56: the bookkeeping of an issue, and the round-robin order of O55 with the last to issue at its end. -/
theorem yieldGoesBehind : Obligations.YieldGoesBehind := by
  unfold Obligations.YieldGoesBehind
  refine ⟨fun w => onAPipe_yield, fun s hs => ?_, fun s k q a hq => ?_, fun t a q ha hq hlast hchoose p hp hne hcan hissued =>
    VTile.effPrio_lt_of_choose_last ha hq hlast hchoose (VTile.mem_eligible.2 ⟨hp, hcan, hissued⟩) hne⟩
  · have hexec : exec .yield s = .next s.next := by simp [exec, execYield, State.forProcess, hs]
    exact ⟨_, hexec, goesTo_next s⟩
  · have hctx : q ≠ monitorCtx := by simp only [monitorCtx]; omega
    simp only [State.procAt, State.startIssue_tile, if_pos, VTile.issued_rr _ _ hctx, VTile.issued_proc_same _ _ hctx, and_self]

end Sys2Proof.Machine
end

section
/-! SUPPORT. An exit at which another slot's wait ends and its pending fault is recorded; and O27. -/

namespace Sys2Proof.Machine

/-- Slot 0 executes; slot 1 is BLOCKED in a fence that has nothing to wait for, a fault of code 3 pending for its boundary. -/
def faultPending : State :=
  { vts := [(0, { im := { procs := [
      (0, { st := .ready }),
      (1, { st := .blocked, wait := { word := wordOf (.fence 0), kind := .fence }, pendFault := [{ code := 3 }] })] } })]
    cur := { vt := 0, who := 0 } }

theorem exec_exit {s : State} (h : s.inMonitor = false) : exec .exit s = .next (s.endProc s.cur.vt s.cur.who false) := by
  simp [exec, execExit, State.forProcess, h]

theorem State.quitLatches_eq_self {s : State} {k q : Nat} (h : ∀ e, (s.procAt k q).member e = false) :
    s.quitLatches k q = s :=
  foldl_eq_self (fun e => by simp [State.quitLatch, h e]) _

theorem faultPending_quitLatches : (faultPending.closeEnds 0 0).quitLatches 0 0 = faultPending :=
  State.quitLatches_eq_self (fun _ => BitVec.getLsbD_zero)

/-- The exit of slot 0 ends the wait of slot 1, whose record then stands in the fault queue, at the start of the monitor area of
the tile store. -/
theorem faultPending_exit : (faultPending.endProc 0 0 false).readByte 0 0x1E0000 ≠ faultPending.readByte 0 0x1E0000 := by
  simp only [State.endProc, Bool.false_eq_true, if_false, faultPending_quitLatches]
  decide +kernel

/-- Refutes O27: an exit looks at the waits of the other slots again, and one that ends with a fault pending has its record
written to the tile store, where the statement has every byte stand. It does not require that no other slot's wait is
over with a fault pending. -/
theorem not_processLifetime : ¬ Obligations.ProcessLifetime := by
  intro h
  obtain ⟨-, -, -, -, t, hexec, hbytes, -⟩ := h faultPending 0 0 0 0 rfl (by decide) rfl
  rw [exec_exit (s := faultPending) rfl, Host.Outcome.next.injEq] at hexec
  rw [← hexec] at hbytes
  exact faultPending_exit (hbytes 0 0x1E0000)

end Sys2Proof.Machine
end

section
/-! SUPPORT. A pool entry whose pc is no multiple of 4, and the write of its argument; and O32. -/

namespace Sys2Proof.Machine

/-- The monitor executes, its tile frozen; g6 names the argument of the first pool entry of the image, whose pc is 1. -/
def oddEntry : State :=
  { vts := [(0, { im := { procs := [(8, { g := [(6, dataReg 0xFC08)] })], pool := [{ entry := 1 }] }
                  freeze := some {} })]
    cur := { vt := 0, who := 8 } }

theorem oddEntry_codesUsed : Rules.codesUsed 0xFC08 (oddEntry.x 7) := by
  refine ⟨?_, ?_, ?_, ?_⟩ <;> decide +kernel

/-- The write of the argument makes the pc of the entry a multiple of 4: the 8 bytes before it read 0, where they read 1. -/
theorem oddEntry_slotwr :
    ∃ t, exec (.slotwr 0 6 7) oddEntry = .next t ∧ t.here.imageWord 0xFC00 ≠ oddEntry.here.imageWord 0xFC00 :=
  ⟨_, rfl, by decide +kernel⟩

/-- Refutes O32: a write of 8 bytes of a pool entry makes the whole entry anew, bits [1:0] of its pc 0 (R133); of an entry
whose pc is no multiple of 4, which the statement does not exclude, the write of another field so changes the pc too. -/
theorem not_slotAccess : ¬ Obligations.SlotAccess := by
  rintro ⟨himage, -⟩
  obtain ⟨-, -, -, hwrite⟩ := himage oddEntry 0 6 7 0xFC08 rfl (by decide +kernel)
  obtain ⟨t, hexec, -, -, hrest⟩ := hwrite (fun h => absurd h (by decide))
    (fun _ => ⟨by decide +kernel, oddEntry_codesUsed⟩)
  obtain ⟨u, hexec', hne⟩ := oddEntry_slotwr
  obtain rfl : t = u := Host.Outcome.next.inj (hexec.symm.trans hexec')
  exact hne (hrest (0xFC00 / 8) (by decide) (by decide) (.inr (.inl (by decide))))

end Sys2Proof.Machine
end

section
/-! SUPPORT. A STOP whose place in its queue is that of a START of another network; and O47. -/

namespace Sys2Proof.Machine

/-- The entry of a STOP of tenant 0: its op, and zeros. -/
def stopEntry : List Byte := 3 :: List.replicate 63 0

/-- The network of tenant 0 in partition 0 is loaded and not started. In the queue of the partition a START of another network
has begun at place 0, though no tag stands there, and the STOP at the head begins at place 0 too. -/
def placeTaken : State :=
  { up := { hostLink := true }
    nets := [(0, { netid := 7, resident := true })]
    queues := [(0, { en := true, fetched := [stopEntry], begun := [{ op := 2, netid := 1, accepted := true }] })] }

/-- The command of the STOP. -/
def placeTakenStop : Command := { op := 3 }

/-- The state in which the STOP has begun. -/
def placeTakenBegun : State :=
  { placeTaken with queues := Sparse.set placeTaken.queues 0 { Sparse.get placeTaken.queues 0 with
      fetched := [], tags := [(0, false)], begun := [{ op := 2, netid := 1, accepted := true }, { op := 3 }] } }

theorem placeTaken_begins : Rules.begins placeTaken 0 3 stopEntry placeTakenStop placeTakenBegun :=
  ⟨by decide +kernel, by decide +kernel, rfl, by decide +kernel, by decide +kernel⟩

/-- The netid that the STOP takes goes to the START at the same place, which so completes in its stead: no record of a STOP
is made. -/
theorem placeTaken_stop :
    ∃ t, exec .stop placeTaken = .next t ∧ ∀ d ∈ (Sparse.get t.queues 0).done, d.op ≠ 3 :=
  ⟨_, rfl, by decide +kernel⟩

/-- Refutes O47: commands are told apart by their place in the queue; where a begun START of another network has the place
that the STOP takes, as nothing in the statement excludes, the STOP of a network loaded and not started completes the START
and not itself. -/
theorem not_launchQueues : ¬ Obligations.LaunchQueues := by
  rintro ⟨hcommands, -⟩
  obtain ⟨-, -, -, hstop, -⟩ := hcommands placeTaken placeTakenBegun 0 stopEntry placeTakenStop _ rfl rfl
  obtain ⟨hloaded, -⟩ := hstop 0 _ placeTaken_begins (by decide +kernel) (by decide +kernel) rfl (by decide +kernel)
    (by decide +kernel)
  obtain ⟨t, hexec, -, d, hd, hrec⟩ := hloaded (by decide +kernel) (by decide +kernel)
  obtain ⟨u, hexec', hno⟩ := placeTaken_stop
  obtain rfl : t = u := Host.Outcome.next.inj (hexec.symm.trans hexec')
  exact hno d hd (by rw [hrec])

end Sys2Proof.Machine
end

section
/-! SUPPORT. A replay's log whose entry names another vtile; and O57. -/

namespace Sys2Proof.Machine

/-- Slot 0 of vtile 0 executes in a replay, g3 a capability at an odd address of its tile store. The log holds, before event 1
of an access of slot 0, the end of a matrix command of vtile 1, at which one command is queued. -/
def replayNamingAnother : State :=
  { vts := [(0, { im := { procs := [(0, { st := .ready, g := [(3, mkCap 0x801 0x800 0x1E0000 31)] })] }
                  replay := some [{ event := some (.matrixCommandComplete, { k := 1 }), part := some (0, 1) }] }),
            (1, { num := 1, ptile := 1, im := { mats := [{}] } })]
    parts := [(0, { regions := 1, v0 := true, state := 1, tiles := [0, 1] })]
    cur := { vt := 0, who := 0 } }

/-- A halfword load at the odd address reads its bytes one by one, and before the second the entry is presented: the command
of vtile 1 is gone. -/
theorem replayNamingAnother_mats :
    ∃ t, exec (.ldh 5 3 0) replayNamingAnother = .next t ∧ (t.tile 1).im.mats = [] :=
  ⟨_, rfl, by decide +kernel⟩

/-- Refutes O57: between the events of an access a replay presents the entries of its log with the operands that they were
logged with, the vtile among them (`State.presentPart`); where nothing bounds the log, as here, a misaligned load of vtile 0
ends a command of vtile 1. -/
theorem not_instructionsStayOnTheirTile : ¬ Obligations.InstructionsStayOnTheirTile := by
  intro h
  obtain ⟨t, hexec, hmats⟩ := replayNamingAnother_mats
  have hsame : t.tile 1 = replayNamingAnother.tile 1 :=
    (h _ t (.ldh 5 3 0) rfl (.inl rfl) hexec).others 1 (by decide)
  have hqueued : (replayNamingAnother.tile 1).im.mats = [{}] := by decide +kernel
  rw [hsame, hqueued] at hmats
  exact absurd hmats (by decide)

end Sys2Proof.Machine
end
